-- ==== Sys2Proof/Word.lean ====
section
/-! DEFINITION. The two unsigned word types of the protocol engine (spec/00_scope.md R10). -/

namespace Sys2Proof

/-- An unsigned 8-bit value, 0..255 (R10). -/
abbrev Byte := BitVec 8

/-- An unsigned 16-bit value, 0..65535 (R10): a checksum, a telemetry word, a command code. -/
abbrev Word := BitVec 16

end Sys2Proof
end

