-- ==== Sys2Proof/Config.lean ====
section
/-! DEFINITION. What an implementation fixes: the constants of spec/00_scope.md Table T1 (R7), the open parameters of
Table T2 (R8), and the one free value of the model. -/

namespace Sys2Proof.Config

/-- `SYNC0` of Table T1. -/
abbrev sync0 : Byte := 0xA5
/-- `SYNC1` of Table T1. -/
abbrev sync1 : Byte := 0xA5
/-- `SRC_ADDR` of Table T1, the value `src_addr` is hardwired to (R23). -/
abbrev srcAddr : Byte := 0x01
/-- `DEST_UNASSIGNED` of Table T1. -/
abbrev destUnassigned : Byte := 0x00
/-- `ASSIGNED_ADDR` of Table T1: the assignment byte of REGISTER and the poll's destination (R186). -/
abbrev assignedAddr : Byte := 0x01
/-- `TERM0` of Table T1, the first terminator byte. -/
abbrev term0 : Byte := 0x0A
/-- `TERM1` of Table T1, the second terminator byte. -/
abbrev term1 : Byte := 0x0D
/-- `MAX_PAYLOAD` of Table T1. -/
abbrev maxPayload : Nat := 240
/-- `RX_CAP` of Table T1. -/
abbrev rxCap : Nat := 256
/-- `TX_CAP` of Table T1. -/
abbrev txCap : Nat := 256
/-- `HDR_LEN` of Table T1. -/
abbrev hdrLen : Nat := 7
/-- `TELEM_LEN` of Table T1. -/
abbrev telemLen : Nat := 20
/-- `POLL_MIN` of Table T1. -/
abbrev pollMin : Nat := 27
/-- `CSUM_MOD` of Table T1. -/
abbrev csumMod : Nat := 65536

/-- The open parameters of Table T2 (R8). -/
structure Params where
  /-- `T_TICK` in whole nanoseconds (DESIGN CHOICE: the unit, log 12; no rule of the step reads it). -/
  tickNs : Nat
  /-- `SETTLE_TICKS`. -/
  settleTicks : Nat
  /-- `BACKOFF_TICKS`. -/
  backoffTicks : Nat
  /-- `RETRY_BUDGET`. -/
  retryBudget : Nat
  /-- `EMPTY_RESET_ON_BYTE`: true counts consecutive empty polls, false counts all of one read (D5). -/
  emptyResetOnByte : Bool
deriving DecidableEq, Repr

/-- What the steps of the block need of Table T2: each count is at least 1. A `SETTLE_TICKS` that breaks only the
duration constraint still runs the same steps (R255, I10). -/
abbrev Params.Runs (p : Params) : Prop :=
  1 ≤ p.settleTicks ∧ 1 ≤ p.backoffTicks ∧ 1 ≤ p.retryBudget

/-- Every constraint of Table T2, the settle duration of at least 1 s among them. -/
abbrev Params.Conforming (p : Params) : Prop :=
  p.Runs ∧ 0 < p.tickNs ∧ 1000000000 ≤ (p.settleTicks - 1) * p.tickNs

/-- The parameters that spec/95_test_vectors.md works its vectors with; they meet Table T2. DESIGN CHOICE (log 3):
the value the model's parameter field holds right after reset. Nothing of the step rests on it. -/
def vectorParams : Params :=
  { tickNs := 10000000, settleTicks := 101, backoffTicks := 2, retryBudget := 3, emptyResetOnByte := true }

/-- The two address spaces of R60. -/
inductive Space where
  /-- `tx_buf` -/
  | tx
  /-- `rx_buf` -/
  | rx
deriving DecidableEq, Repr

/-- The free value (I1, I2): what index `index` of a buffer holds after the `epoch`-th reset and before anything is
written there. No body: nothing can evaluate it or prove a value of it (log 4). -/
opaque unspecifiedByte (space : Space) (epoch index : Nat) : Byte

end Sys2Proof.Config
end

