-- ==== Sys2Proof/Syntax.lean ====
section
/-! DEFINITION. The commands of spec/opcode_table.json (spec/30_encoding.md R84, Table T8), and the request frame that
carries one with its operands (R80, Table T7). -/

namespace Sys2Proof

/-- The four commands, one constructor per row of the opcode table. A row's 16 bits fix the command wholly
(mask `0xFFFF`, no operand field): the operand of REGISTER, the serial number, is read from `rx_buf` (R86, R122). -/
inductive Instr where
  /-- `RESET` (R120) -/
  | reset
  /-- `IDENTIFY` (R121) -/
  | identify
  /-- `REGISTER` (R122) -/
  | register
  /-- `POLL` (R123) -/
  | poll
deriving DecidableEq, Repr

/-- A request frame: the fields of Table T7 that are not constants or computed from the others. -/
structure Frame where
  /-- byte 3, `dest_addr` -/
  dest : Byte
  /-- bytes 4 and 5, the command -/
  cmd : Instr
  /-- bytes `7 .. 6+L` -/
  payload : List Byte
deriving DecidableEq, Repr

end Sys2Proof
end

