-- ==== Sys2Proof/WellFormed.lean ====
section
/-! DEFINITION. Which frames are requests the block may build (spec/30_encoding.md R82, R84, R87, Table T8). A command
alone (`Instr`) has no operand field, so every term of it is well formed; the checks bear on its frame. -/

namespace Sys2Proof

/-- The `dest_addr` column of Table T8. -/
def Instr.destAddr : Instr → Byte
  | .reset => Config.destUnassigned
  | .identify => Config.destUnassigned
  | .register => Config.destUnassigned
  | .poll => Config.assignedAddr

/-- A request's payload is at most 240 bytes (R82, R117). -/
def Frame.lengthOk (f : Frame) : Bool := f.payload.length ≤ Config.maxPayload

/-- The destination is the one Table T8 gives the command. -/
def Frame.destOk (f : Frame) : Bool := f.dest == f.cmd.destAddr

/-- The payload has the shape Table T8 gives the command: empty, or a serial number and the assignment byte. -/
def Frame.payloadOk (f : Frame) : Bool :=
  match f.cmd with
  | .reset => f.payload == []
  | .identify => f.payload == []
  | .register => f.payload.getLast? == some Config.assignedAddr
  | .poll => f.payload == []

/-- A frame the block may build. -/
def Frame.wellFormed (f : Frame) : Bool := f.lengthOk && f.destOk && f.payloadOk

end Sys2Proof
end

