-- ==== Sys2Proof/Decode.lean ====
section
/-! DEFINITION. The command words and the frame format: decoders, total on any bytes and refusing by name, then the
encoders written from the same tables (spec/30_encoding.md Tables T7 and T8), with CHECKSUM (spec/40_frame_codec.md
R110, R111) and the byte-order helpers (spec/20_memory.md R63, R65). -/

namespace Sys2Proof

/-- The 16-bit big-endian view of two bytes, the first the high one (R65). -/
def beWord (hi lo : Byte) : Word := (hi.setWidth 16 <<< 8) ||| lo.setWidth 16

/-- `w[15:8]` (R86). -/
def hiByte (w : Word) : Byte := (w >>> 8).setWidth 8

/-- `w[7:0]` (R86). -/
def loByte (w : Word) : Byte := w.setWidth 8

/-- One step of the accumulation of R111: the byte is zero-extended and the sum wraps modulo 65536. -/
def csumAdd (acc : Word) (b : Byte) : Word := acc + b.setWidth 16

/-- CHECKSUM (R111): the accumulated sum, inverted and incremented. -/
def csum (bytes : List Byte) : Word := ~~~(bytes.foldl csumAdd 0) + 1

/-- Why a byte sequence is not read as a command or a request frame. -/
inductive DecodeError where
  /-- fewer bytes than the format needs -/
  | truncated
  /-- a (control, function) pair outside Table T8 (R87) -/
  | unknownCommand (control function : Byte)
  /-- bytes 0 and 1 are not `A5 A5` -/
  | badSync
  /-- byte 2 is not `SRC_ADDR` -/
  | badSource
  /-- the length byte is above 240 (R82) -/
  | badLength
  /-- the checksum bytes are not those of R112 -/
  | badChecksum
  /-- the last two bytes are not `0A 0D` -/
  | badTerminator
  /-- the destination or the payload is not what Table T8 gives the command -/
  | badOperand
deriving DecidableEq, Repr

/-- Which command a (control, function) pair selects; all 16 bits are matched (R84, R85). -/
def decodeCommand (control function : Byte) : Except DecodeError Instr :=
  if control = 0x30 ∧ function = 0x44 then .ok .reset
  else if control = 0x30 ∧ function = 0x40 then .ok .identify
  else if control = 0x30 ∧ function = 0x41 then .ok .register
  else if control = 0x31 ∧ function = 0x42 then .ok .poll
  else .error (.unknownCommand control function)

/-- The decoder of command words: the control byte stands first (Table T7), the rest of the bytes is handed back. -/
def decode (bytes : List Byte) : Except DecodeError (Instr × List Byte) :=
  match bytes with
  | control :: function :: rest =>
    match decodeCommand control function with
    | .ok i => .ok (i, rest)
    | .error e => .error e
  | _ => .error .truncated

/-- The body of a frame after its 7 header bytes: `L` payload bytes, the checksum of `header ++ payload`, the
terminator (Table T7, R112). -/
def decodeBody (header : List Byte) (len : Nat) (body : List Byte) : Except DecodeError (List Byte × List Byte) :=
  match body.drop len with
  | hi :: lo :: t0 :: t1 :: rest =>
    let payload := body.take len
    if beWord hi lo ≠ csum (header ++ payload) then .error .badChecksum
    else if t0 ≠ Config.term0 ∨ t1 ≠ Config.term1 then .error .badTerminator
    else .ok (payload, rest)
  | _ => .error .truncated

/-- The decoder of request frames (Table T7), the rest of the bytes handed back. The block itself decodes no frame
(R83, R118): this is the reading of the format that claims about the built frames are stated in (log 15). -/
def decodeFrame (bytes : List Byte) : Except DecodeError (Frame × List Byte) :=
  match bytes with
  | s0 :: s1 :: src :: dest :: control :: function :: len :: body =>
    if s0 ≠ Config.sync0 ∨ s1 ≠ Config.sync1 then .error .badSync
    else if src ≠ Config.srcAddr then .error .badSource
    else if Config.maxPayload < len.toNat then .error .badLength
    else
      match decodeCommand control function with
      | .error e => .error e
      | .ok cmd =>
        match decodeBody [s0, s1, src, dest, control, function, len] len.toNat body with
        | .error e => .error e
        | .ok (payload, rest) =>
          let frame : Frame := { dest := dest, cmd := cmd, payload := payload }
          if frame.wellFormed then .ok (frame, rest) else .error .badOperand
  | _ => .error .truncated

/-- The control column of Table T8. -/
def Instr.control : Instr → Byte
  | .reset => 0x30
  | .identify => 0x30
  | .register => 0x30
  | .poll => 0x31

/-- The function column of Table T8. -/
def Instr.function : Instr → Byte
  | .reset => 0x44
  | .identify => 0x40
  | .register => 0x41
  | .poll => 0x42

/-- The opcode column of Table T8: `control << 8 | function` (R84). -/
def Instr.opcode (i : Instr) : Word := beWord i.control i.function

/-- The encoder of command words, in wire order. -/
def encode (i : Instr) : List Byte := [i.control, i.function]

/-- The bytes CHECKSUM covers: sync through payload (R81, Table T7). -/
def coveredBytes (src dest control function : Byte) (payload : List Byte) : List Byte :=
  [Config.sync0, Config.sync1, src, dest, control, function, BitVec.ofNat 8 payload.length] ++ payload

/-- The whole frame of Table T7 for given fields: covered bytes, checksum high byte first, terminator (R112, R116). -/
def frameBytes (src dest control function : Byte) (payload : List Byte) : List Byte :=
  let covered := coveredBytes src dest control function payload
  covered ++ [hiByte (csum covered), loByte (csum covered), Config.term0, Config.term1]

/-- The encoder of request frames: `FRAME(dst, ctrl, func, payload)` of R90 with `src_addr = 0x01`. -/
def encodeFrame (f : Frame) : List Byte :=
  frameBytes Config.srcAddr f.dest f.cmd.control f.cmd.function f.payload

/-- What the decoder reads from a word of the opcode table: the 16 bits `control << 8 | function` are laid out with
the control byte first, as Table T7 stores them (log 11). Anything but a 16-bit word is refused. -/
def decodeTableWord (nbits w : Nat) : Option Instr :=
  if nbits = 16 ∧ w < 65536 then
    match decode [BitVec.ofNat 8 (w / 256), BitVec.ofNat 8 (w % 256)] with
    | .ok (i, _) => some i
    | .error _ => none
  else none

end Sys2Proof
end

