-- ==== Sys2Proof/Machine/State.lean ====
section
/-! DEFINITION. The state of the block (spec/10_state.md sections 1 to 7), the events it steps on (R42), the trace
records (R45), and the reasons a step stops. -/

namespace Sys2Proof.Machine

/-- `ctl`, the 14 named states of Table T3; the reserved values 14 and 15 do not exist in a model (R232). -/
inductive Ctl where
  /-- 0: waiting for `Start` -/
  | idle
  /-- 1: writing the reset frame -/
  | rstTx
  /-- 2: first settle delay -/
  | reset
  /-- 3: writing the identify frame -/
  | idTx
  /-- 4: reading the identify response -/
  | idRx
  /-- 5: second settle delay -/
  | identified
  /-- 6: writing the register frame -/
  | regTx
  /-- 7: reading the register response -/
  | regRx
  /-- 8: assigns the address and builds the poll frame on `Step` -/
  | registered
  /-- 9: writing the poll frame -/
  | pollTx
  /-- 10: reading the poll response -/
  | pollRx
  /-- 11: checks the poll response length on `Step` -/
  | polled
  /-- 12: terminal, success -/
  | success
  /-- 13: terminal, failure -/
  | failed
deriving DecidableEq, Repr

/-- `fail_reason`, the named codes of Table T5; 6 and 7 are never written (I15). -/
inductive FailReason where
  /-- 0, the reset value -/
  | none
  /-- 1 (R220) -/
  | writeError
  /-- 2 (R221) -/
  | readError
  /-- 3 (R222) -/
  | shortResponse
  /-- 4 (R223) -/
  | payloadTooLarge
  /-- 5 (R223) -/
  | serialOutOfRange
deriving DecidableEq, Repr

/-- One record of the trace stream (R45(d)). -/
inductive TraceRecord where
  /-- `TraceTx`: a frame whose write is issued -/
  | tx (frame : List Byte)
  /-- `TraceRx`: the bytes of a completed read -/
  | rx (bytes : List Byte)
deriving DecidableEq, Repr

/-- The input events (R42). -/
inductive Event where
  /-- the host starts a session -/
  | start
  /-- the host resets the block -/
  | reset
  /-- one period of the time base has passed -/
  | tick
  /-- the transport wrote `n` bytes of the outstanding frame -/
  | writeAck (n : Nat)
  /-- the transport answers the outstanding write with an error -/
  | writeErr
  /-- the transport answers the outstanding read with a byte -/
  | rxByte (b : Byte)
  /-- the transport answers the outstanding read with would-block -/
  | rxEmpty
  /-- the transport answers the outstanding read with an error -/
  | rxErr
  /-- the block's own step in a state that needs no input -/
  | step
deriving DecidableEq, Repr

/-- The written bytes of one buffer: (index, byte) cells, indices strictly rising (log 4). -/
abbrev Memory := List Host.Cell

/-- Every piece of state the spec gives the block (R20..R35, R45(d)), and three fields of the model's own. -/
structure State where
  /-- R21 -/
  ctl : Ctl
  /-- R24 -/
  destAddr : Byte
  /-- R25 -/
  txBuf : Memory
  /-- R26 -/
  txLen : BitVec 9
  /-- R27 -/
  rxBuf : Memory
  /-- R28 -/
  rxCount : BitVec 9
  /-- R29 -/
  rxTerm : Bool
  /-- R30 -/
  emptyCnt : Nat
  /-- R31 -/
  backoffCnt : Nat
  /-- R32 -/
  settleCnt : Nat
  /-- R33 -/
  failCode : BitVec 2
  /-- R34 -/
  failReason : FailReason
  /-- R35 -/
  failState : Ctl
  /-- the trace stream, oldest record first (R45(d), log 16) -/
  trace : List TraceRecord
  /-- the MODEL's own: the parameters of Table T2, which no event writes (log 3) -/
  params : Config.Params
  /-- the MODEL's own: the environment's coming events, next one first (log 1) -/
  inputs : List Event
  /-- the MODEL's own: how many `Reset` events there were, the argument of the free value (log 4) -/
  epoch : Nat
deriving DecidableEq, Repr

/-- Why the machine stops with a fault. -/
inductive Fault where
  /-- A byte would be stored at an index of a buffer that does not exist, 256 or above (R60). Raised by `onRxByte`,
  in states no run reaches (R144). Safe: the model stops (log 7). -/
  | bufferIndex (index : Nat)
deriving DecidableEq, Repr

/-- Why a step is refused. -/
inductive Refusal where
  /-- An instruction whose arm of `exec` has no meaning yet. Raised by no arm. Safe. -/
  | notModelled (mnemonic : String)
  /-- An event R44 does not admit in this state: it has no step. Raised by `handle`. Safe (log 5). -/
  | inadmissible (event : Event)
  /-- The word selected for a step is no command of Table T8 (R87). Raised by `stepOn`, never with the command words
  that `fetch` selects. Safe (log 11). -/
  | noSuchCommand (word : List Byte)
deriving DecidableEq, Repr

/-- The machine right after reset and at power-on (R50, Table T4; R250). The buffers list nothing: their bytes are
unspecified (log 4). The three fields of the model's own are as logs 1, 3 and 4 say. -/
def State.reset : State where
  ctl := .idle
  destAddr := 0x00
  txBuf := []
  txLen := 0
  rxBuf := []
  rxCount := 0
  rxTerm := false
  emptyCnt := 0
  backoffCnt := 0
  settleCnt := 0
  failCode := 0
  failReason := .none
  failState := .idle
  trace := []
  params := Config.vectorParams
  inputs := []
  epoch := 0

end Sys2Proof.Machine
end

