-- ==== Sys2Proof/Machine/Ops.lean ====
section
/-! DEFINITION. The named operations over the buffers and registers (spec/20_memory.md R60), the outstanding request
and the admissible events (spec/10_state.md R43, R44), BUILD_REQUEST (spec/40_frame_codec.md R116), and taking a
session failure with the return from it (spec/60_exceptions.md R226, R229). -/

namespace Sys2Proof.Machine

/-- The form a buffer is kept in: indices strictly rising, each inside the 256 bytes of R60. -/
abbrev Memory.wf (m : Memory) : Prop :=
  m.Pairwise (fun c d => c.1 < d.1) ∧ ∀ c ∈ m, c.1 < 256

/-- The byte written at an index, if one was. -/
def Memory.read? (m : Memory) (index : Nat) : Option Byte :=
  match m with
  | [] => none
  | cell :: rest => if cell.1 = index then some cell.2 else Memory.read? rest index

/-- `buf[index] <- b`, the cells kept in rising order. -/
def Memory.write (m : Memory) (index : Nat) (b : Byte) : Memory :=
  match m with
  | [] => [(index, b)]
  | cell :: rest =>
    if index < cell.1 then (index, b) :: cell :: rest
    else if index = cell.1 then (index, b) :: rest
    else cell :: Memory.write rest index b

/-- `MemWrite(buf, index, n, s)`: consecutive byte writes at rising index (R12, R60). -/
def Memory.writeBytes (m : Memory) (index : Nat) (bytes : List Byte) : Memory :=
  match bytes with
  | [] => m
  | b :: rest => Memory.writeBytes (Memory.write m index b) (index + 1) rest

/-- One byte of a buffer: what was written there, else the unspecified byte of this epoch (R25, R27, I1, log 4). -/
def Memory.byte (m : Memory) (space : Config.Space) (epoch index : Nat) : Byte :=
  (m.read? index).getD (Config.unspecifiedByte space epoch index)

/-- `src_addr`, hardwired (R23). -/
def State.srcAddr (_ : State) : Byte := Config.srcAddr

/-- `tx_buf[index]`. -/
def State.txByte (s : State) (index : Nat) : Byte := s.txBuf.byte .tx s.epoch index

/-- `rx_buf[index]`. -/
def State.rxByte (s : State) (index : Nat) : Byte := s.rxBuf.byte .rx s.epoch index

/-- `MemRead(tx_buf, index, n)`. -/
def State.txBytes (s : State) (index n : Nat) : List Byte := (List.range n).map fun k => s.txByte (index + k)

/-- `MemRead(rx_buf, index, n)`. -/
def State.rxBytes (s : State) (index n : Nat) : List Byte := (List.range n).map fun k => s.rxByte (index + k)

/-- The frame in the outbound buffer, `tx_buf[0..tx_len)` (R43). -/
def State.txFrame (s : State) : List Byte := s.txBytes 0 s.txLen.toNat

/-- `last_response`, `rx_buf[0..rx_count)` (R40). -/
def State.lastResponse (s : State) : List Byte := s.rxBytes 0 s.rxCount.toNat

/-- The states with a write outstanding (Table T3). -/
def Ctl.writing : Ctl → Bool
  | .rstTx | .idTx | .regTx | .pollTx => true
  | .idle | .reset | .idRx | .identified | .regRx | .registered | .pollRx | .polled | .success | .failed => false

/-- The reading states (spec/41_response_reader.md, opening; Table T3). -/
def Ctl.reading : Ctl → Bool
  | .idRx | .regRx | .pollRx => true
  | .idle | .rstTx | .reset | .idTx | .identified | .regTx | .registered | .pollTx | .polled | .success
  | .failed => false

/-- The settle delays (Table T3). -/
def Ctl.settling : Ctl → Bool
  | .reset | .identified => true
  | .idle | .rstTx | .idTx | .idRx | .regTx | .regRx | .registered | .pollTx | .pollRx | .polled | .success
  | .failed => false

/-- The states left on the block's own `Step` (R44, D28). -/
def Ctl.stepping : Ctl → Bool
  | .registered | .polled => true
  | .idle | .rstTx | .reset | .idTx | .idRx | .identified | .regTx | .regRx | .pollTx | .pollRx | .success
  | .failed => false

/-- What the block asks of the transport. -/
inductive Request where
  /-- write one whole frame -/
  | write (frame : List Byte)
  /-- read one byte -/
  | readByte
  /-- nothing -/
  | none
deriving DecidableEq, Repr

/-- The outstanding request (R43). -/
def State.req (s : State) : Request :=
  if s.ctl.writing then .write s.txFrame
  else if s.ctl.reading ∧ s.backoffCnt = 0 then .readByte
  else .none

/-- Which events a state admits (R44): the transport answers only the request the block makes. -/
def State.admits (s : State) (e : Event) : Bool :=
  match e with
  | .start => true
  | .reset => true
  | .tick => true
  | .writeAck _ => s.ctl.writing
  | .writeErr => s.ctl.writing
  | .rxByte _ => s.ctl.reading && s.backoffCnt == 0
  | .rxEmpty => s.ctl.reading && s.backoffCnt == 0
  | .rxErr => s.ctl.reading && s.backoffCnt == 0
  | .step => s.ctl.stepping

/-- The state with another list of coming events (log 1). -/
def State.withInputs (s : State) (inputs : List Event) : State := { s with inputs := inputs }

/-- A record is added at the end of the trace stream (R45(d)). -/
def State.emit (s : State) (r : TraceRecord) : State := { s with trace := s.trace ++ [r] }

/-- A frame is put into `tx_buf` from index 0, with its length. -/
def State.storeFrame (s : State) (frame : List Byte) : State :=
  { s with txBuf := s.txBuf.writeBytes 0 frame, txLen := BitVec.ofNat 9 frame.length }

/-- `rx_buf[rx_count] <- b; rx_count <- rx_count + 1` (R144). -/
def State.storeByte (s : State) (b : Byte) : State :=
  { s with rxBuf := s.rxBuf.write s.rxCount.toNat b, rxCount := s.rxCount + 1 }

/-- What BUILD_REQUEST reports (R116, R117). -/
inductive BuildResult where
  /-- the frame stands in `tx_buf` -/
  | ok
  /-- the payload is longer than 240 bytes -/
  | refused
deriving DecidableEq, Repr

/-- BUILD_REQUEST (R116, R117). -/
def buildRequest (control function : Byte) (payload : List Byte) (s : State) : BuildResult × State :=
  if Config.maxPayload < payload.length then (.refused, { s with txLen := 0 })
  else (.ok, s.storeFrame (frameBytes s.srcAddr s.destAddr control function payload))

/-- The result code of a failure raised in a state: 3 in the poll step, 2 elsewhere (R224, Table T11). -/
def Ctl.failCode : Ctl → BitVec 2
  | .pollTx | .pollRx | .polled => 3
  | .idle | .rstTx | .reset | .idTx | .idRx | .identified | .regTx | .regRx | .registered | .success
  | .failed => 2

/-- `raise Failure(reason, code)`, with the code of the present state (R224, R226). -/
def State.raiseFailure (s : State) (reason : FailReason) : State :=
  { s with
    failReason := reason
    failCode := s.ctl.failCode
    failState := s.ctl
    ctl := .failed }

/-- `Reset`, the only way out of `SUCCESS` and `FAILED` (R229, R250): Table T4 from any state, in one step. The
parameters are no state (R41), the coming events are the environment's (log 1), and the buffers hold unspecified bytes
anew (log 4). -/
def State.afterReset (s : State) : State :=
  { State.reset with params := s.params, inputs := s.inputs, epoch := s.epoch + 1 }

/-- `start_read()` (R141). -/
def State.startRead (s : State) : State :=
  { s with rxCount := 0, rxTerm := false, emptyCnt := 0, backoffCnt := 0 }

/-- The step that issues a command's write: BUILD_REQUEST, the `TraceTx` record and the new `ctl` in one step (R119);
a refused payload is a session failure instead (R117). -/
def State.issue (s : State) (control function : Byte) (payload : List Byte) (next : Ctl) : State :=
  match buildRequest control function payload s with
  | (.ok, built) => { built.emit (.tx built.txFrame) with ctl := next }
  | (.refused, left) => left.raiseFailure .payloadTooLarge

end Sys2Proof.Machine
end

