-- ==== Sys2Proof/Machine/Operands.lean ====
section
/-! DEFINITION. The operands assembled from received bytes (spec/30_encoding.md R86): the serial length, the serial
number, REGISTER's payload, and the telemetry words (spec/42_session_controller.md R205). -/

namespace Sys2Proof.Machine

/-- `N`, the declared length byte of the identify response (R86, R187). -/
def State.serialLength (s : State) : Nat := (s.rxByte 6).toNat

/-- The identify response holds all `N` declared serial bytes (R190). -/
def State.serialInRange (s : State) : Bool := Config.hdrLen + s.serialLength ≤ s.rxCount.toNat

/-- The serial number `rx_buf[7..7+N)`, copied unchanged (R86). -/
def State.serialNumber (s : State) : List Byte := s.rxBytes Config.hdrLen s.serialLength

/-- REGISTER's payload: the serial number and the address-assignment byte (R86, R122, R186). -/
def State.registerPayload (s : State) : List Byte := s.serialNumber ++ [Config.assignedAddr]

/-- `tele_word[i] = rx_buf[7+2i] << 8 | rx_buf[8+2i]` (R86, R205). -/
def State.teleWord (s : State) (i : Nat) : Word := beWord (s.rxByte (7 + 2 * i)) (s.rxByte (8 + 2 * i))

/-- The ten telemetry words, presented in `SUCCESS` only (R205, log 13). -/
def State.telemetry (s : State) : Option (List Word) :=
  if s.ctl = .success then some ((List.range 10).map s.teleWord) else none

end Sys2Proof.Machine
end

