-- ==== Sys2Proof/Machine/Flags.lean ====
section
/-! DEFINITION. The codes of the named registers, the derived flags and the STATUS word (spec/10_state.md R21, R22,
R34, R36, R37), the reader's terminator test (spec/41_response_reader.md R145), and the block's outputs (R45). -/

namespace Sys2Proof.Machine

/-- The 4-bit code of a `ctl` value (Table T3). -/
def Ctl.code : Ctl → BitVec 4
  | .idle => 0
  | .rstTx => 1
  | .reset => 2
  | .idTx => 3
  | .idRx => 4
  | .identified => 5
  | .regTx => 6
  | .regRx => 7
  | .registered => 8
  | .pollTx => 9
  | .pollRx => 10
  | .polled => 11
  | .success => 12
  | .failed => 13

/-- The source's states, each the last step completed (R22). -/
inductive SourceState where
  /-- Idle -/
  | idle
  /-- Reset -/
  | reset
  /-- Identified -/
  | identified
  /-- Registered -/
  | registered
  /-- Polled -/
  | polled
  /-- Success -/
  | success
  /-- Failed -/
  | failed
deriving DecidableEq, Repr

/-- `src_state` (R22). -/
def Ctl.sourceState : Ctl → SourceState
  | .idle | .rstTx => .idle
  | .reset | .idTx | .idRx => .reset
  | .identified | .regTx | .regRx => .identified
  | .registered | .pollTx | .pollRx => .registered
  | .polled => .polled
  | .success => .success
  | .failed => .failed

/-- The 3-bit code of a failure kind (Table T5). -/
def FailReason.code : FailReason → BitVec 3
  | .none => 0
  | .writeError => 1
  | .readError => 2
  | .shortResponse => 3
  | .payloadTooLarge => 4
  | .serialOutOfRange => 5

/-- `done` (R36). -/
def State.done (s : State) : Bool :=
  match s.ctl with
  | .success | .failed => true
  | .idle | .rstTx | .reset | .idTx | .idRx | .identified | .regTx | .regRx | .registered | .pollTx | .pollRx
  | .polled => false

/-- `busy` (R36). -/
def State.busy (s : State) : Bool :=
  match s.ctl with
  | .idle | .success | .failed => false
  | .rstTx | .reset | .idTx | .idRx | .identified | .regTx | .regRx | .registered | .pollTx | .pollRx
  | .polled => true

/-- `result_code` (R36). -/
def State.resultCode (s : State) : BitVec 2 := if s.ctl = .failed then s.failCode else 0

/-- `link_own` (R45(c)). -/
def State.linkOwn (s : State) : Bool := s.busy

/-- STATUS, each field at its place in Table T6; bits 31:25 read 0 (R37). -/
def State.status (s : State) : BitVec 32 :=
  (s.ctl.code.setWidth 32)
  ||| ((BitVec.ofBool s.busy).setWidth 32 <<< 4)
  ||| ((BitVec.ofBool s.done).setWidth 32 <<< 5)
  ||| (s.resultCode.setWidth 32 <<< 6)
  ||| (s.failReason.code.setWidth 32 <<< 8)
  ||| (s.failState.code.setWidth 32 <<< 11)
  ||| ((BitVec.ofBool s.rxTerm).setWidth 32 <<< 15)
  ||| (s.rxCount.setWidth 32 <<< 16)

/-- The terminator test, evaluated after a byte is stored and counted (R145). -/
def State.terminated (s : State) : Bool :=
  2 ≤ s.rxCount.toNat
    && s.rxByte (s.rxCount.toNat - 1) == Config.term1
    && s.rxByte (s.rxCount.toNat - 2) == Config.term0

/-- The outputs of R45. `V` is the type of the variant wire, which the block passes through unchanged (log 14). -/
structure Outputs (V : Type) where
  /-- (a) -/
  status : BitVec 32
  /-- (b) -/
  destAddr : Byte
  /-- (c) -/
  linkOwn : Bool
  /-- (d) -/
  trace : List TraceRecord
  /-- (e) the response view, shown in every state (DESIGN CHOICE, log 13) -/
  response : List Byte
  /-- (e) the telemetry word view, none outside `SUCCESS` (DESIGN CHOICE, log 13) -/
  telemetry : Option (List Word)
  /-- (f) -/
  variant : V
deriving DecidableEq, Repr

/-- The outputs of a state, with the input wire `variant` (R45). R45(e) can be read as calling both views valid in
`SUCCESS` only: that the response view shows `rx_buf[0..rx_count)` in every state is the model's choice (DESIGN CHOICE,
log 13). -/
def State.outputs (s : State) (V : Type) (variant : V) : Outputs V where
  status := s.status
  destAddr := s.destAddr
  linkOwn := s.linkOwn
  trace := s.trace
  response := s.lastResponse
  telemetry := s.telemetry
  variant := variant

end Sys2Proof.Machine
end

