-- ==== Sys2Proof/Machine/Reader.lean ====
section
/-! DEFINITION. The Response Reader (spec/41_response_reader.md) and what a completed read leads to
(spec/42_session_controller.md R181..R183, R193..R195, R199..R201). -/

namespace Sys2Proof.Machine

/-- The state a reading state's accepted response leads to (Table T10). -/
def State.acceptResponse (s : State) : State :=
  match s.ctl with
  | .idRx => { s with settleCnt := s.params.settleTicks, ctl := .identified }
  | .regRx => { s with ctl := .registered }
  | .pollRx => { s with ctl := .polled }
  | .idle | .rstTx | .reset | .idTx | .identified | .regTx | .registered | .pollTx | .polled | .success
  | .failed => s

/-- `read_done()` (R150): the `TraceRx` record, then the check of the reading state in the same step. -/
def State.readDone (s : State) : State :=
  let traced := s.emit (.rx s.lastResponse)
  if Config.hdrLen ≤ s.rxCount.toNat then traced.acceptResponse else traced.raiseFailure .shortResponse

/-- What follows once a byte is stored: the terminator test, then the cap (R144, R146). -/
def State.afterByte (s : State) : State :=
  if s.terminated then State.readDone { s with rxTerm := true }
  else if s.rxCount.toNat = Config.rxCap then s.readDone
  else s

/-- `RxByte(b)` in a reading state (R144). An index outside the buffer is a fault (R60, log 7). -/
def onRxByte (b : Byte) (s : State) : Host.Outcome State Fault Refusal :=
  if s.rxCount.toNat < Config.rxCap then
    let stored := s.storeByte b
    .next (State.afterByte
      { stored with emptyCnt := if s.params.emptyResetOnByte then 0 else s.emptyCnt })
  else .fault (.bufferIndex s.rxCount.toNat)

/-- `RxEmpty` in a reading state (R148). -/
def onRxEmpty (s : State) : State :=
  let counted := { s with emptyCnt := s.emptyCnt + 1 }
  if s.params.retryBudget ≤ s.emptyCnt + 1 then counted.readDone
  else { counted with backoffCnt := s.params.backoffTicks }

/-- `RxErr` in a reading state (R149): no `TraceRx`, a failure in the same step. -/
def onRxErr (s : State) : State := s.raiseFailure .readError

end Sys2Proof.Machine
end

