-- ==== Sys2Proof/Machine/Controller.lean ====
section
/-! DEFINITION. The Session Controller (spec/42_session_controller.md, Table T10): which event issues which command
(the machine's fetch), and the step of every event that issues none. -/

namespace Sys2Proof.Machine

/-- The command word an event issues, control byte first: the four rows of Table T10 that build a frame (R171, R177,
R187, R196). Every other event issues none. -/
def fetch (s : State) (e : Event) : Option (List Byte) :=
  match s.ctl, e with
  | .idle, .start => some [0x30, 0x44]
  | .reset, .tick => if s.settleCnt = 1 then some [0x30, 0x40] else none
  | .identified, .tick => if s.settleCnt = 1 then some [0x30, 0x41] else none
  | .registered, .step => some [0x31, 0x42]
  | _, _ => none

/-- A `Tick` that ends no settle delay: the running counter counts down (R147, R174), and with none running nothing
changes (R47, log 9). -/
def onTick (s : State) : State :=
  if s.ctl.settling then
    if 1 < s.settleCnt then { s with settleCnt := s.settleCnt - 1 } else s
  else if s.ctl.reading then
    if 0 < s.backoffCnt then { s with backoffCnt := s.backoffCnt - 1 } else s
  else s

/-- What an acknowledged write leads to (R172, R178, R188, R197). -/
def State.frameSent (s : State) : State :=
  match s.ctl with
  | .rstTx => { s with settleCnt := s.params.settleTicks, ctl := .reset }
  | .idTx => { s.startRead with ctl := .idRx }
  | .regTx => { s.startRead with ctl := .regRx }
  | .pollTx => { s.startRead with ctl := .pollRx }
  | .idle | .reset | .idRx | .identified | .regRx | .registered | .pollRx | .polled | .success | .failed => s

/-- `WriteAck(n)`: any count but `tx_len` is a write failure (R173, R179, R189, R198, R220). -/
def onWriteAck (n : Nat) (s : State) : State :=
  if n = s.txLen.toNat then s.frameSent else s.raiseFailure .writeError

/-- `WriteErr` (R173, R179, R189, R198, R220). -/
def onWriteErr (s : State) : State := s.raiseFailure .writeError

/-- `Step` in `POLLED` (R202, R203). -/
def onStep (s : State) : State :=
  if Config.pollMin ≤ s.rxCount.toNat then { s with ctl := .success } else s.raiseFailure .shortResponse

/-- The step of an event that issues no command (Table T10). An inadmissible event has no step (R44, log 5). -/
def handle (e : Event) (s : State) : Host.Outcome State Fault Refusal :=
  if s.admits e then
    match e with
    | .start => .next s
    | .reset => .next s.afterReset
    | .tick => .next (onTick s)
    | .writeAck n => .next (onWriteAck n s)
    | .writeErr => .next (onWriteErr s)
    | .rxByte b => onRxByte b s
    | .rxEmpty => .next (onRxEmpty s)
    | .rxErr => .next (onRxErr s)
    | .step => .next (onStep s)
  else .refused (.inadmissible e)

/-- A state whose next step issues the command: the row of Table T10 that issues it, its last event coming next, and
for REGISTER an identify response of seven zero bytes, whose serial number is empty (log 2). -/
def State.aboutToIssue (s : State) (i : Instr) : State :=
  match i with
  | .reset => { s with ctl := .idle, inputs := .start :: s.inputs }
  | .identify => { s with ctl := .reset, settleCnt := 1, inputs := .tick :: s.inputs }
  | .register =>
    { s with
      ctl := .identified
      settleCnt := 1
      rxBuf := s.rxBuf.writeBytes 0 [0, 0, 0, 0, 0, 0, 0]
      rxCount := 7
      inputs := .tick :: s.inputs }
  | .poll => { s with ctl := .registered, inputs := .step :: s.inputs }

end Sys2Proof.Machine
end

