-- ==== Sys2Proof/Machine/Handshake.lean ====
section
/-! DEFINITION. The handshake commands RESET, IDENTIFY and REGISTER (spec/40_frame_codec.md R120..R122), each the whole
step of the row that issues it (spec/42_session_controller.md R171, R177, R187). -/

namespace Sys2Proof.Machine

/-- RESET (R120, R171). -/
def execReset (s : State) : Host.Outcome State Fault Refusal :=
  .next (s.issue 0x30 0x44 [] .rstTx)

/-- IDENTIFY at the end of the first settle delay (R121, R177). -/
def execIdentify (s : State) : Host.Outcome State Fault Refusal :=
  .next (State.issue { s with settleCnt := 0 } 0x30 0x40 [] .idTx)

/-- REGISTER at the end of the second settle delay (R122, R187): the range check of R190 first, then BUILD_REQUEST,
whose refusal is the size check of R191. -/
def execRegister (s : State) : Host.Outcome State Fault Refusal :=
  let settled := { s with settleCnt := 0 }
  if s.serialInRange then .next (settled.issue 0x30 0x41 s.registerPayload .regTx)
  else .next (settled.raiseFailure .serialOutOfRange)

end Sys2Proof.Machine
end

