-- ==== Sys2Proof/Machine/Telemetry.lean ====
section
/-! DEFINITION. The telemetry command POLL (spec/40_frame_codec.md R123), the whole step of the row that issues it
(spec/42_session_controller.md R196). -/

namespace Sys2Proof.Machine

/-- POLL: the address is assigned, then the frame is built with it (R123, R196). -/
def execPoll (s : State) : Host.Outcome State Fault Refusal :=
  .next (State.issue { s with destAddr := Config.assignedAddr } 0x31 0x42 [] .pollTx)

end Sys2Proof.Machine
end

