-- ==== Sys2Proof/Machine/Dispatch.lean ====
section
/-! DEFINITION. One arm per command. -/

namespace Sys2Proof.Machine

def exec (i : Instr) (s : State) : Host.Outcome State Fault Refusal :=
  match i with
  | .reset => Sys2Proof.Machine.execReset s
  | .identify => Sys2Proof.Machine.execIdentify s
  | .register => Sys2Proof.Machine.execRegister s
  | .poll => Sys2Proof.Machine.execPoll s

end Sys2Proof.Machine
end

