-- ==== Sys2Proof/Machine/Step.lean ====
section
/-! DEFINITION. One step: the next input event is taken; the command it issues is fetched, decoded and executed, or,
where it issues none, its own row of Table T10 is followed (spec/10_state.md R42, spec/42_session_controller.md). -/

namespace Sys2Proof.Machine

/-- The step of one event, already taken from the coming events. -/
def stepOn (e : Event) (s : State) : Host.Outcome State Fault Refusal :=
  match fetch s e with
  | some word =>
    match decode word with
    | .ok (i, _) => exec i s
    | .error _ => .refused (.noSuchCommand word)
  | none => handle e s

/-- One step. With no event coming the block waits (R260, I9, log 1). -/
def step (s : State) : Host.Outcome State Fault Refusal :=
  match s.inputs with
  | [] => .next s
  | e :: rest => stepOn e (s.withInputs rest)

/-- The state whose next step issues the command a table word stands for; a word of no command is placed nowhere,
since the block has no path that issues it (R87, log 2). -/
def State.withFetchWord (s : State) (nbits w : Nat) : State :=
  match decodeTableWord nbits w with
  | some i => s.aboutToIssue i
  | none => s

end Sys2Proof.Machine
end

