-- ==== Sys2Proof/Safety.lean ====
section
/-! DEFINITION. What counts as a legal state, a legal session and progress, in the terms the claims use. -/

namespace Sys2Proof.Machine

/-- Every failure the block can raise: state, kind, code (spec/60_exceptions.md R225, Table T12). -/
def failureTable : List (Ctl × FailReason × BitVec 2) :=
  [(.rstTx, .writeError, 2), (.idTx, .writeError, 2), (.idRx, .readError, 2), (.idRx, .shortResponse, 2),
    (.identified, .serialOutOfRange, 2), (.identified, .payloadTooLarge, 2), (.regTx, .writeError, 2),
    (.regRx, .readError, 2), (.regRx, .shortResponse, 2), (.pollTx, .writeError, 3), (.pollRx, .readError, 3),
    (.pollRx, .shortResponse, 3), (.polled, .shortResponse, 3)]

/-- The states of the poll step and after it, in which the address is assigned (R24, R196). -/
def Ctl.addressAssigned : Ctl → Bool
  | .pollTx | .pollRx | .polled | .success => true
  | .idle | .rstTx | .reset | .idTx | .idRx | .identified | .regTx | .regRx | .registered | .failed => false

/-- The state the block is in, or was in when its failure was raised (R35). -/
def State.stage (s : State) : Ctl := if s.ctl = .failed then s.failState else s.ctl

/-- What every state of a session meets, whatever the environment does. -/
structure State.Legal (s : State) : Prop where
  /-- the parameters keep the counts of Table T2 -/
  paramsRun : s.params.Runs
  /-- `tx_buf` keeps its form (R60) -/
  txWf : s.txBuf.wf
  /-- `rx_buf` keeps its form (R60) -/
  rxWf : s.rxBuf.wf
  /-- the largest frame is 251 bytes (R26) -/
  txLen_le : s.txLen.toNat ≤ 251
  /-- no unspecified byte stands in the frame (R25) -/
  txWritten : ∀ i, i < s.txLen.toNat → (s.txBuf.read? i).isSome = true
  /-- R28 -/
  rxCount_le : s.rxCount.toNat ≤ 256
  /-- a read that goes on has room (R144, R146) -/
  rxRoom : s.ctl.reading = true → s.rxCount.toNat < 256
  /-- no unspecified byte stands in the response (R27) -/
  rxWritten : ∀ i, i < s.rxCount.toNat → (s.rxBuf.read? i).isSome = true
  /-- an accepted response has its header (R181, R193, R199) -/
  rxHeader : s.ctl = .identified ∨ s.ctl = .registered ∨ s.ctl = .polled → 7 ≤ s.rxCount.toNat
  /-- a session ends in success only with the telemetry received (R202) -/
  rxTelemetry : s.ctl = .success → 27 ≤ s.rxCount.toNat
  /-- the destination is 1 from the poll on, and 0 before (R24) -/
  dest : s.destAddr = if s.stage.addressAssigned = true then 1 else 0
  /-- a settle delay has ticks left (R174) -/
  settlePos : s.ctl.settling = true → 1 ≤ s.settleCnt
  /-- R32 -/
  settle_le : s.settleCnt ≤ s.params.settleTicks
  /-- no settle delay runs elsewhere (R32) -/
  settleZero : s.ctl.settling = false → s.settleCnt = 0
  /-- R31 -/
  backoff_le : s.backoffCnt ≤ s.params.backoffTicks
  /-- no back-off runs outside a read (R31) -/
  backoffZero : s.ctl.reading = false → s.backoffCnt = 0
  /-- R30 -/
  empty_le : s.emptyCnt ≤ s.params.retryBudget
  /-- a read that goes on has not used its budget (R148) -/
  emptyRoom : s.ctl.reading = true → s.emptyCnt < s.params.retryBudget
  /-- the failure registers are written by failure entry only (R33, R34, R35) -/
  noRecord : s.ctl ≠ .failed → s.failReason = .none ∧ s.failCode = 0 ∧ s.failState = .idle
  /-- a failure is one of Table T12 (R225) -/
  record : s.ctl = .failed → (s.failState, s.failReason, s.failCode) ∈ failureTable

/-- The received bytes hold the pair `0A 0D` only at their end and only when the read stopped on it (R29, R145). -/
structure State.Delimited (s : State) : Prop where
  /-- a read that goes on has seen no terminator -/
  goesOn : s.ctl.reading = true → s.rxTerm = false
  /-- `rx_term` says that the last two bytes are the terminator -/
  seen : s.rxTerm = true → s.terminated = true
  /-- the first pair ended the read -/
  firstPair : ∀ i, i + 1 < s.rxCount.toNat → s.rxByte i = 0x0A → s.rxByte (i + 1) = 0x0D →
    s.rxTerm = true ∧ i + 2 = s.rxCount.toNat

/-- The serial number an identify response carries: as many bytes after the header as byte 6 says (R86). -/
def serialOf (response : List Byte) : List Byte := (response.drop 7).take (response.getD 6 0).toNat

/-- The trace of a whole session with given responses: four writes and three reads, in their order (R206). -/
def sessionTrace (idResponse regResponse pollResponse : List Byte) : List TraceRecord :=
  [.tx (encodeFrame { dest := 0, cmd := .reset, payload := [] }),
    .tx (encodeFrame { dest := 0, cmd := .identify, payload := [] }),
    .rx idResponse,
    .tx (encodeFrame { dest := 0, cmd := .register, payload := serialOf idResponse ++ [0x01] }),
    .rx regResponse,
    .tx (encodeFrame { dest := 1, cmd := .poll, payload := [] }),
    .rx pollResponse]

/-- How many records of its session's trace a state has emitted. -/
def Ctl.records : Ctl → Nat
  | .idle | .failed => 0
  | .rstTx | .reset => 1
  | .idTx | .idRx => 2
  | .identified => 3
  | .regTx | .regRx => 4
  | .registered => 5
  | .pollTx | .pollRx => 6
  | .polled | .success => 7

/-- As `Ctl.records`; a short response was traced before it failed (R150). -/
def State.records (s : State) : Nat :=
  if s.ctl = .failed then
    s.failState.records + (if s.failReason = .shortResponse ∧ s.failState.reading = true then 1 else 0)
  else s.ctl.records

/-- The trace is the part of a session's trace that the state has come to (R206). -/
def State.InSession (s : State) : Prop :=
  ∃ idResponse regResponse pollResponse,
    s.trace = (sessionTrace idResponse regResponse pollResponse).take s.records
    ∧ (s.ctl = .identified → idResponse = s.lastResponse)
    ∧ (s.ctl = .registered → regResponse = s.lastResponse)
    ∧ (s.ctl = .polled ∨ s.ctl = .success → pollResponse = s.lastResponse)
    ∧ (s.ctl.writing = true → s.trace.getLast? = some (.tx s.txFrame))

/-- The events that move a session on (R207): everything admitted but `Reset`, a `Start` outside `IDLE` (R48) and a
`Tick` with no running counter (R47). -/
def State.progresses (s : State) (e : Event) : Bool :=
  s.admits e &&
    match e with
    | .reset => false
    | .start => s.ctl == .idle
    | .tick => (s.ctl.settling && 0 < s.settleCnt) || (s.ctl.reading && 0 < s.backoffCnt)
    | .writeAck _ => true
    | .writeErr => true
    | .rxByte _ => true
    | .rxEmpty => true
    | .rxErr => true
    | .step => true

/-- More than the events of the empty polls between two received bytes (R153). -/
def pollBound (p : Config.Params) : Nat := p.retryBudget * (p.backoffTicks + 1)

/-- More than the events left to the present read (R153). -/
def State.readRank (s : State) : Nat :=
  (256 - s.rxCount.toNat) * (pollBound s.params + 1)
    + (s.params.retryBudget - s.emptyCnt) * (s.params.backoffTicks + 1) + s.backoffCnt

/-- The read rank of a read that just started. -/
def readBound (p : Config.Params) : Nat := 256 * (pollBound p + 1) + pollBound p

/-- At least as many as the progressing events left to the session (R207). -/
def State.rank (s : State) : Nat :=
  let r := readBound s.params
  let d := s.params.settleTicks
  match s.ctl with
  | .success | .failed => 0
  | .polled => 1
  | .pollRx => 2 + s.readRank
  | .pollTx => 3 + r
  | .registered => 4 + r
  | .regRx => 5 + r + s.readRank
  | .regTx => 6 + 2 * r
  | .identified => 6 + 2 * r + s.settleCnt
  | .idRx => 7 + 2 * r + d + s.readRank
  | .idTx => 8 + 3 * r + d
  | .reset => 8 + 3 * r + d + s.settleCnt
  | .rstTx => 9 + 3 * r + 2 * d
  | .idle => 10 + 3 * r + 2 * d

/-- Two states that differ in nothing the block may read: every register, and the buffer bytes below the lengths
(R25, R27, R39). -/
structure State.Alike (s t : State) : Prop where
  /-- every field but the buffers and the epoch is the same -/
  registers : t = { s with txBuf := t.txBuf, rxBuf := t.rxBuf, epoch := t.epoch }
  /-- the frame is the same -/
  frame : s.txFrame = t.txFrame
  /-- the response is the same -/
  response : s.lastResponse = t.lastResponse

/-- Two outcomes that differ in nothing the block may read. -/
def OutcomesAlike : Host.Outcome State Fault Refusal → Host.Outcome State Fault Refusal → Prop
  | .next s, .next t => s.Alike t
  | .fault a, .fault b => a = b
  | .refused a, .refused b => a = b
  | .next _, .fault _ => False
  | .next _, .refused _ => False
  | .fault _, .next _ => False
  | .fault _, .refused _ => False
  | .refused _, .next _ => False
  | .refused _, .fault _ => False

/-- Table T4: every piece of the spec's state at its reset value (R50). A buffer of unspecified bytes is one in which
no byte is written (log 4). -/
structure State.AtReset (s : State) : Prop where
  /-- `ctl` -/
  ctl : s.ctl = .idle
  /-- `src_addr` -/
  srcAddr : s.srcAddr = 0x01
  /-- `dest_addr` -/
  destAddr : s.destAddr = 0x00
  /-- `tx_buf[0..255]` unspecified -/
  txBuf : ∀ i, s.txBuf.read? i = none
  /-- `tx_len` -/
  txLen : s.txLen = 0
  /-- `rx_buf[0..255]` unspecified -/
  rxBuf : ∀ i, s.rxBuf.read? i = none
  /-- `rx_count` -/
  rxCount : s.rxCount = 0
  /-- `rx_term` -/
  rxTerm : s.rxTerm = false
  /-- `empty_cnt` -/
  emptyCnt : s.emptyCnt = 0
  /-- `backoff_cnt` -/
  backoffCnt : s.backoffCnt = 0
  /-- `settle_cnt` -/
  settleCnt : s.settleCnt = 0
  /-- `fail_code` -/
  failCode : s.failCode = 0
  /-- `fail_reason` -/
  failReason : s.failReason.code = 0
  /-- `fail_state` -/
  failState : s.failState.code = 0
  /-- the trace stream -/
  trace : s.trace = []

/-- The bytes that the `RxByte` events of a list deliver, in order. -/
def receivedBytes : List Event → List Byte
  | [] => []
  | .rxByte b :: es => b :: receivedBytes es
  | .start :: es => receivedBytes es
  | .reset :: es => receivedBytes es
  | .tick :: es => receivedBytes es
  | .writeAck _ :: es => receivedBytes es
  | .writeErr :: es => receivedBytes es
  | .rxEmpty :: es => receivedBytes es
  | .rxErr :: es => receivedBytes es
  | .step :: es => receivedBytes es

/-- The counted empty polls, `counted` so far, stay below the budget along a list of events (R30, R148). -/
def BudgetKept (p : Config.Params) (counted : Nat) : List Event → Prop
  | [] => True
  | .rxEmpty :: es => counted + 1 < p.retryBudget ∧ BudgetKept p (counted + 1) es
  | .rxByte _ :: es => BudgetKept p (if p.emptyResetOnByte then 0 else counted) es
  | .start :: es => BudgetKept p counted es
  | .reset :: es => BudgetKept p counted es
  | .tick :: es => BudgetKept p counted es
  | .writeAck _ :: es => BudgetKept p counted es
  | .writeErr :: es => BudgetKept p counted es
  | .rxErr :: es => BudgetKept p counted es
  | .step :: es => BudgetKept p counted es

/-- A byte stream that ends in its first terminator pair (R152). -/
structure EndsAtFirstPair (bytes : List Byte) : Prop where
  /-- it ends in `0A 0D` -/
  ends : ∃ front, bytes = front ++ [0x0A, 0x0D]
  /-- no pair stands earlier -/
  first : ∀ j, j + 2 < bytes.length → ¬(bytes[j]? = some 0x0A ∧ bytes[j + 1]? = some 0x0D)
  /-- it fits the buffer -/
  fits : bytes.length ≤ 256

/-- The order of the source's states; the two terminal ones end it (R22). -/
def SourceState.mayFollow : SourceState → SourceState → Bool
  | .idle, .reset => true
  | .reset, .identified => true
  | .identified, .registered => true
  | .registered, .polled => true
  | .polled, .success => true
  | .idle, .failed => true
  | .reset, .failed => true
  | .identified, .failed => true
  | .registered, .failed => true
  | .polled, .failed => true
  | a, b => a == b

end Sys2Proof.Machine
end

