-- ==== Sys2Proof/Certificates/Slice0/Obligations.lean ====
section
/-! DEFINITION. The statements for the provers. Rule numbers R<n> are those of spec/. -/

open Sys2Proof Sys2Proof.Machine

/-! ### Reset -/

/-- R50, R250: a `Reset` event, from any state, gives Table T4's values in one step and leaves no request
outstanding; the state at power-on holds the same values. -/
def Obligations.ResetEventResetsFromAnyState : Prop :=
  State.reset.AtReset ∧ ∀ (s : State) (rest : List Event), s.inputs = .reset :: rest →
    ∃ t, step s = .next t ∧ t.AtReset ∧ t.req = .none

/-- "STATUS reads `0x00000000` after reset, and `link_own = 0`" (R252, derived in the spec). -/
def Obligations.StatusAndLinkOwnAfterReset : Prop :=
  ∀ s : State, s.AtReset → s.status = 0x00000000#32 ∧ s.linkOwn = false

/-! ### Decoding and encoding -/

/-- The command words of Table T8, written out, decode to their commands. -/
def Obligations.TableT8WordsDecode : Prop :=
  decode [0x30, 0x44] = .ok (.reset, []) ∧ decode [0x30, 0x40] = .ok (.identify, [])
    ∧ decode [0x30, 0x41] = .ok (.register, []) ∧ decode [0x31, 0x42] = .ok (.poll, [])
    ∧ decodeTableWord 16 0x3044 = some .reset ∧ decodeTableWord 16 0x3040 = some .identify
    ∧ decodeTableWord 16 0x3041 = some .register ∧ decodeTableWord 16 0x3142 = some .poll

/-- The decoder matches all 16 bits: two bytes decode to a command exactly when `control << 8 | function` is the
opcode Table T8 gives it, and no other pair decodes. -/
def Obligations.DecodeMatchesTheFullOpcode : Prop :=
  ∀ (control function : Byte) (rest : List Byte) (i : Instr) (more : List Byte),
    decode (control :: function :: rest) = .ok (i, more) ↔
      more = rest ∧ control.toNat * 256 + function.toNat =
        match i with
        | .reset => 0x3044
        | .identify => 0x3040
        | .register => 0x3041
        | .poll => 0x3142

/-- Decode after encode, with the model's own frame decoder (log 15): every well-formed request frame, with every
payload Table T8 admits, is read back from its bytes, whatever bytes follow. -/
def Obligations.FrameDecodeOfEncode : Prop :=
  ∀ (f : Frame) (rest : List Byte), f.wellFormed = true →
    decodeFrame (encodeFrame f ++ rest) = .ok (f, rest)

/-- Encode after decode, with the model's own frame decoder (log 15): what the frame decoder accepts is a
well-formed frame, and the bytes it read are that frame's encoding, every one of them. -/
def Obligations.FrameEncodeOfDecode : Prop :=
  ∀ (bytes rest : List Byte) (f : Frame), decodeFrame bytes = .ok (f, rest) →
    f.wellFormed = true ∧ bytes = encodeFrame f ++ rest

/-! ### CHECKSUM and BUILD_REQUEST -/

/-- R111: the closed form of CHECKSUM. -/
def Obligations.ChecksumClosedForm : Prop :=
  ∀ bytes : List Byte,
    (csum bytes).toNat = (65536 - (bytes.map BitVec.toNat).sum % 65536) % 65536

/-- The corner cases of CHECKSUM: when it is 0, the wrap at 258 bytes and not before, and that the order of the
bytes does not matter. -/
def Obligations.ChecksumCornerCases : Prop :=
  csum [] = 0x0000 ∧ csum [0x01] = 0xFFFF
    ∧ (∀ bytes : List Byte, csum bytes = 0x0000 ↔ (bytes.map BitVec.toNat).sum % 65536 = 0)
    ∧ (∀ bytes : List Byte, 65536 ≤ (bytes.map BitVec.toNat).sum → 258 ≤ bytes.length)
    ∧ csum (List.replicate 258 0xFF) = 0xFF02
    ∧ (∀ a b : List Byte, a.Perm b → csum a = csum b)

/-- The spec's own inference R115: for every frame the block builds, the checksum taken as one word cancels the byte
sum of the covered bytes; taken as two bytes it does not, and the property of the source's section 8 fails on
RESET's frame. -/
def Obligations.ChecksumWordCancelsTheByteSum : Prop :=
  (∀ (control function : Byte) (payload : List Byte) (s t : State),
    buildRequest control function payload s = (.ok, t) →
      (((t.txBytes 0 (7 + payload.length)).map BitVec.toNat).sum
        + (t.txByte (7 + payload.length)).toNat * 256 + (t.txByte (8 + payload.length)).toNat) % 65536 = 0)
    ∧ (((encodeFrame { dest := 0, cmd := .reset, payload := [] }).take 9).map BitVec.toNat).sum % 65536 ≠ 0
    ∧ csum ((encodeFrame { dest := 0, cmd := .reset, payload := [] }).take 9) ≠ 1

/-- R116: BUILD_REQUEST writes exactly the frame of Table T7 and its length, and nothing else; an oversized payload
is refused. -/
def Obligations.BuildRequestWritesTheFrame : Prop :=
  ∀ (control function : Byte) (payload : List Byte) (s : State),
    (payload.length ≤ 240 →
      ∃ t, buildRequest control function payload s = (.ok, t)
        ∧ t = { s with txBuf := t.txBuf, txLen := t.txLen }
        ∧ t.txLen.toNat = 11 + payload.length
        ∧ t.txBytes 0 7 = [0xA5, 0xA5, 0x01, s.destAddr, control, function, BitVec.ofNat 8 payload.length]
        ∧ (t.txByte 6).toNat = payload.length
        ∧ t.txBytes 7 payload.length = payload
        ∧ t.txByte (7 + payload.length) = hiByte (csum (t.txBytes 0 (7 + payload.length)))
        ∧ t.txByte (8 + payload.length) = loByte (csum (t.txBytes 0 (7 + payload.length)))
        ∧ t.txByte (9 + payload.length) = 0x0A ∧ t.txByte (10 + payload.length) = 0x0D
        ∧ ∀ a, 11 + payload.length ≤ a → t.txByte a = s.txByte a)
    ∧ (240 < payload.length → buildRequest control function payload s = (.refused, { s with txLen := 0 }))
    ∧ (control = 0x30 → function = 0x40 → payload = [] → s.destAddr = 0 →
        ∃ t, buildRequest control function payload s = (.ok, t) ∧ t.txLen = 11
          ∧ t.txFrame = [0xA5, 0xA5, 0x01, 0x00, 0x30, 0x40, 0x00, 0xFE, 0x45, 0x0A, 0x0D])

/-- R117: an oversized payload writes no frame byte, sets `tx_len` to 0 and fails the session with
`PAYLOAD_TOO_LARGE`, with no write issued; of the four commands only REGISTER can come to it. -/
def Obligations.OversizedPayloadIsNeverSent : Prop :=
  (∀ (control function : Byte) (payload : List Byte) (next : Ctl) (s : State), 240 < payload.length →
    (buildRequest control function payload s).1 = .refused
      ∧ (∀ a, (buildRequest control function payload s).2.txByte a = s.txByte a)
      ∧ (buildRequest control function payload s).2.txLen = 0
      ∧ (s.issue control function payload next).failReason = .payloadTooLarge
      ∧ (s.issue control function payload next).ctl = .failed
      ∧ (s.issue control function payload next).req = .none
      ∧ (s.issue control function payload next).trace = s.trace)
    ∧ ∀ (i : Instr) (s t : State), exec i s = .next t → t.failReason = .payloadTooLarge →
        s.failReason = .payloadTooLarge ∨ i = .register

/-! ### The four commands -/

/-- RESET completes in every state: it writes its 11-byte frame, its length, the trace record and `ctl`, and nothing
else. (In states other than `IDLE`, which no row of Table T10 issues it from, that is the model's choice, log 6.) -/
def Obligations.ResetCommandBuildsItsFrame : Prop :=
  ∀ s : State, ∃ t, exec .reset s = .next t
    ∧ t = { s with ctl := .rstTx, txBuf := t.txBuf, txLen := 11, trace := s.trace ++ [.tx t.txFrame] }
    ∧ t.txFrame = frameBytes 0x01 s.destAddr 0x30 0x44 []
    ∧ t.req = .write t.txFrame
    ∧ ∀ a, 11 ≤ a → t.txByte a = s.txByte a

/-- IDENTIFY completes in every state: it clears `settle_cnt`, writes its 11-byte frame, its length, the trace
record and `ctl`, and nothing else. (In states other than `RESET` that is the model's choice, log 6.) -/
def Obligations.IdentifyCommandBuildsItsFrame : Prop :=
  ∀ s : State, ∃ t, exec .identify s = .next t
    ∧ t = { s with
            settleCnt := 0, ctl := .idTx, txBuf := t.txBuf, txLen := 11, trace := s.trace ++ [.tx t.txFrame] }
    ∧ t.txFrame = frameBytes 0x01 s.destAddr 0x30 0x40 []
    ∧ t.req = .write t.txFrame
    ∧ ∀ a, 11 ≤ a → t.txByte a = s.txByte a

/-- R171, R177: in a legal `IDLE` a `Start` runs RESET, and in a legal `RESET` the last settle `Tick` clears the
counter and runs IDENTIFY; the frame of the rule is then outstanding, built with `dest_addr` 0. -/
def Obligations.HandshakeRowsSendTheirFrames : Prop :=
  ∀ (s : State) (rest : List Event), s.Legal →
    (s.ctl = .idle → s.inputs = .start :: rest →
      ∃ t, step s = .next t ∧ exec .reset (s.withInputs rest) = .next t ∧ s.destAddr = 0x00 ∧ t.ctl.code = 1
        ∧ t = { s with
                inputs := rest, ctl := .rstTx, txBuf := t.txBuf, txLen := 11, trace := s.trace ++ [.tx t.txFrame] }
        ∧ t.req = .write [0xA5, 0xA5, 0x01, 0x00, 0x30, 0x44, 0x00, 0xFE, 0x41, 0x0A, 0x0D])
    ∧ (s.ctl = .reset → s.settleCnt = 1 → s.inputs = .tick :: rest →
      ∃ t, step s = .next t ∧ exec .identify (s.withInputs rest) = .next t ∧ s.destAddr = 0x00 ∧ t.ctl.code = 3
        ∧ t = { s with
                inputs := rest, settleCnt := 0, ctl := .idTx, txBuf := t.txBuf, txLen := 11,
                trace := s.trace ++ [.tx t.txFrame] }
        ∧ t.req = .write [0xA5, 0xA5, 0x01, 0x00, 0x30, 0x40, 0x00, 0xFE, 0x45, 0x0A, 0x0D])

/-- R190, R192: in `IDENTIFIED` the last settle `Tick` clears the counter and, with `N` the byte at index 6 of the
response, fails with `SERIAL_OUT_OF_RANGE` where fewer than `7 + N` bytes were received, and else, for `N` up to
239, runs REGISTER: the frame of the serial number and the byte 01 is then outstanding, `N + 12` bytes long. -/
def Obligations.SecondSettleEndRegistersOrFails : Prop :=
  ∀ (s : State) (rest : List Event), s.ctl = .identified → s.settleCnt = 1 → s.inputs = .tick :: rest →
    (s.rxCount.toNat < 7 + (s.rxByte 6).toNat →
      ∃ t, step s = .next t
        ∧ t = { s with
                inputs := rest, settleCnt := 0, ctl := .failed, failReason := .serialOutOfRange, failCode := 2,
                failState := .identified }
        ∧ t.req = .none)
    ∧ (7 + (s.rxByte 6).toNat ≤ s.rxCount.toNat → (s.rxByte 6).toNat ≤ 239 →
      ∃ t, step s = .next t ∧ exec .register (s.withInputs rest) = .next t
        ∧ t = { s with
                inputs := rest, settleCnt := 0, ctl := .regTx, txBuf := t.txBuf, txLen := t.txLen,
                trace := s.trace ++ [.tx t.txFrame] }
        ∧ t.txLen.toNat = (s.rxByte 6).toNat + 12
        ∧ t.req = .write (frameBytes 0x01 s.destAddr 0x30 0x41 (s.rxBytes 7 (s.rxByte 6).toNat ++ [0x01]))
        ∧ (s.Legal → s.destAddr = 0x00))

/-- REGISTER completes in every state whose response holds the declared serial bytes, at most 239 of them: it clears
`settle_cnt`, writes the frame whose payload is the serial number and the byte 01, its length `N + 12`, the trace
record and `ctl`, and nothing else. (In states other than `IDENTIFIED` that is the model's choice, log 6.) -/
def Obligations.RegisterCommandBuildsItsFrame : Prop :=
  ∀ s : State, 7 + (s.rxByte 6).toNat ≤ s.rxCount.toNat → (s.rxByte 6).toNat ≤ 239 →
    ∃ t, exec .register s = .next t
      ∧ t = { s with
              settleCnt := 0, ctl := .regTx, txBuf := t.txBuf, txLen := t.txLen,
              trace := s.trace ++ [.tx t.txFrame] }
      ∧ t.txLen.toNat = (s.rxByte 6).toNat + 12
      ∧ t.txFrame = frameBytes 0x01 s.destAddr 0x30 0x41 (s.rxBytes 7 (s.rxByte 6).toNat ++ [0x01])
      ∧ t.txBytes 0 7 = [0xA5, 0xA5, 0x01, s.destAddr, 0x30, 0x41, s.rxByte 6 + 1]
      ∧ t.txBytes 7 (s.rxByte 6).toNat = s.rxBytes 7 (s.rxByte 6).toNat
      ∧ t.txByte (7 + (s.rxByte 6).toNat) = 0x01
      ∧ t.req = .write t.txFrame
      ∧ ∀ a, 12 + (s.rxByte 6).toNat ≤ a → t.txByte a = s.txByte a

/-- With fewer bytes received than the serial number needs (R190), REGISTER fails the session with
`SERIAL_OUT_OF_RANGE` and sends nothing, in every state: it writes `settle_cnt` and the failure record, and nothing
else. In `IDENTIFIED`, where the last settle `Tick` runs it, the code is 2. (In other states: log 6.) -/
def Obligations.RegisterFailsOnMissingSerialBytes : Prop :=
  ∀ s : State, s.rxCount.toNat < 7 + (s.rxByte 6).toNat →
    ∃ t, exec .register s = .next t
      ∧ t = { s with
              settleCnt := 0, ctl := .failed, failReason := .serialOutOfRange, failCode := t.failCode,
              failState := s.ctl }
      ∧ t.req = .none
      ∧ (s.ctl = .identified → t.failCode = 2)
      ∧ (s.ctl = .identified → s.settleCnt = 1 → ∀ rest, s.inputs = .tick :: rest →
          step s = .next (t.withInputs rest))

/-- With the serial bytes received but 240 or more of them, REGISTER fails the session with `PAYLOAD_TOO_LARGE` and
issues no write: `settle_cnt`, `tx_len` and the failure record are written, no byte of either buffer is, and this
needs 247 bytes received ("This case needs `rx_count ≥ 247`", R191). (What `tx_len` becomes is log 8, and is not
stated here; in states other than `IDENTIFIED`: log 6.) -/
def Obligations.RegisterFailsOnOversizedSerial : Prop :=
  ∀ s : State, 7 + (s.rxByte 6).toNat ≤ s.rxCount.toNat → 240 ≤ (s.rxByte 6).toNat →
    247 ≤ s.rxCount.toNat ∧
    ∃ t, exec .register s = .next t
      ∧ t = { s with
              settleCnt := 0, txLen := t.txLen, ctl := .failed, failReason := .payloadTooLarge,
              failCode := t.failCode, failState := s.ctl }
      ∧ t.req = .none
      ∧ (s.ctl = .identified → t.failCode = 2)
      ∧ (s.ctl = .identified → s.settleCnt = 1 → ∀ rest, s.inputs = .tick :: rest →
          step s = .next (t.withInputs rest))

/-- POLL completes in every state: it sets `dest_addr` to 1, writes R123's frame, its length, the trace record and
`ctl`, and nothing else; in `REGISTERED` a `Step` runs it (R196). (In other states that is the model's choice, log
6.) -/
def Obligations.PollCommandBuildsItsFrame : Prop :=
  ∀ s : State, ∃ t, exec .poll s = .next t
    ∧ t = { s with
            destAddr := 0x01, ctl := .pollTx, txBuf := t.txBuf, txLen := 11, trace := s.trace ++ [.tx t.txFrame] }
    ∧ t.txFrame = [0xA5, 0xA5, 0x01, 0x01, 0x31, 0x42, 0x00, 0xFE, 0x41, 0x0A, 0x0D]
    ∧ t.req = .write t.txFrame
    ∧ (∀ a, 11 ≤ a → t.txByte a = s.txByte a)
    ∧ (s.ctl = .registered → ∀ rest, s.inputs = .step :: rest → step s = .next (t.withInputs rest))

/-- A command that ends with its write outstanding has put its own well-formed encoding into `tx_buf`: the frame
decoder reads the command and its operand back from it, checksum and terminator checked. (The frame decoder is the
model's own, log 15; that a command does so in states whose row does not issue it is the model's choice, log 6.) -/
def Obligations.BuiltFramesDecodeToTheirCommand : Prop :=
  ∀ (i : Instr) (s t : State), s.destAddr = 0x00 → exec i s = .next t → t.ctl ≠ .failed →
    ∃ f : Frame, decodeFrame t.txFrame = .ok (f, []) ∧ f.wellFormed = true ∧ f.cmd = i ∧ f.dest = t.destAddr
      ∧ f.payload = match i with
        | .reset | .identify | .poll => []
        | .register => s.rxBytes 7 (s.rxByte 6).toNat ++ [0x01]

/-- A command ends in a failure or with its write outstanding, from every state: no command faults or is refused.
(From states whose row does not issue it that is the model's choice, log 6.) -/
def Obligations.CommandsNeverStop : Prop :=
  ∀ (i : Instr) (s : State), ∃ t, exec i s = .next t
    ∧ (t.req = .write t.txFrame ∨ (i = .register ∧ t.ctl = .failed ∧ t.failState = s.ctl ∧ t.trace = s.trace))

/-! ### The step -/

/-- A step runs the command its event selects: where the word fetched decodes to a command, the step is `exec` of it
on the state with the event taken, and the model adds nothing around it. -/
def Obligations.StepRunsTheDecodedCommand : Prop :=
  ∀ (s : State) (e : Event) (rest : List Event) (word more : List Byte) (i : Instr),
    s.inputs = e :: rest → fetch (s.withInputs rest) e = some word → decode word = .ok (i, more) →
      step s = exec i (s.withInputs rest)

/-- The four rows of Table T10 that issue a command do so, and in every other state and event the event's own row is
followed. -/
def Obligations.EachRowIssuesItsCommand : Prop :=
  ∀ (s : State) (e : Event) (rest : List Event), s.inputs = e :: rest →
    step s =
      if s.ctl = .idle ∧ e = .start then exec .reset (s.withInputs rest)
      else if s.ctl = .reset ∧ e = .tick ∧ s.settleCnt = 1 then exec .identify (s.withInputs rest)
      else if s.ctl = .identified ∧ e = .tick ∧ s.settleCnt = 1 then exec .register (s.withInputs rest)
      else if s.ctl = .registered ∧ e = .step then exec .poll (s.withInputs rest)
      else handle e (s.withInputs rest)

/-- An event is refused exactly where R44 does not admit it ("An inadmissible event has no step"; that this is a
refusal is the model's choice, log 5): a write's answer with no write outstanding, a read's answer with no read
outstanding, a `Step` outside `REGISTERED` and `POLLED`; `Start`, `Reset` and `Tick` never are. -/
def Obligations.OnlyInadmissibleEventsAreRefused : Prop :=
  ∀ (s : State) (e : Event) (rest : List Event), s.inputs = e :: rest →
    ((∃ r, step s = .refused r) ↔
      match e with
      | .start => False
      | .reset => False
      | .tick => False
      | .writeAck _ => ∀ frame, s.req ≠ .write frame
      | .writeErr => ∀ frame, s.req ≠ .write frame
      | .rxByte _ => s.req ≠ .readByte
      | .rxEmpty => s.req ≠ .readByte
      | .rxErr => s.req ≠ .readByte
      | .step => s.ctl ≠ .registered ∧ s.ctl ≠ .polled)

/-- A legal state answers a next state to every event it admits, and waits with none coming (log 1): it never faults
(the fault is the model's, log 7). -/
def Obligations.LegalStatesStepOnAdmittedEvents : Prop :=
  ∀ s : State, s.Legal →
    (s.inputs = [] → step s = .next s)
      ∧ (∀ f, step s ≠ .fault f)
      ∧ ∀ (e : Event) (rest : List Event), s.inputs = e :: rest → s.admits e = true →
          ∃ t, step s = .next t ∧ t.inputs = rest

/-- R48: `Start` begins a session in `IDLE` and changes nothing in any other state. -/
def Obligations.StartActsInIdleOnly : Prop :=
  ∀ (s : State) (rest : List Event), s.inputs = .start :: rest →
    (s.ctl = .idle → ∃ t, step s = .next t ∧ t.ctl = .rstTx)
      ∧ (s.ctl ≠ .idle → step s = .next (s.withInputs rest))

/-- R47: a `Tick` with no running counter changes nothing, and any `Tick` changes a counter only, unless it ends a
settle delay. -/
def Obligations.TickCountsOrChangesNothing : Prop :=
  ∀ (s : State) (rest : List Event), s.inputs = .tick :: rest →
    ((s.ctl = .idle ∨ s.ctl.writing = true ∨ (s.ctl.reading = true ∧ s.backoffCnt = 0) ∨ s.ctl = .registered
        ∨ s.ctl = .polled ∨ s.ctl = .success ∨ s.ctl = .failed) → step s = .next (s.withInputs rest))
      ∧ (¬(s.ctl.settling = true ∧ s.settleCnt = 1) →
        ∃ t, step s = .next t
          ∧ t = { s with inputs := rest, settleCnt := t.settleCnt, backoffCnt := t.backoffCnt })

/-- R172: the acknowledged reset frame starts the first settle delay, and no read. -/
def Obligations.AcknowledgedResetStartsTheSettleDelay : Prop :=
  ∀ (s : State) (n : Nat) (rest : List Event), s.ctl = .rstTx → s.inputs = .writeAck n :: rest →
    n = s.txLen.toNat →
      ∃ t, step s = .next t ∧ t = { s with inputs := rest, settleCnt := s.params.settleTicks, ctl := .reset }
        ∧ t.req = .none

/-- R178, R188, R197 with R141: the other acknowledged frames start a read: the read's registers are cleared,
`rx_buf` is not, and one byte is requested. -/
def Obligations.AcknowledgedRequestStartsTheRead : Prop :=
  ∀ (s : State) (n : Nat) (rest : List Event), s.inputs = .writeAck n :: rest → n = s.txLen.toNat →
    s.ctl = .idTx ∨ s.ctl = .regTx ∨ s.ctl = .pollTx →
      ∃ t, step s = .next t
        ∧ t = { s with
                inputs := rest, rxCount := 0, rxTerm := false, emptyCnt := 0, backoffCnt := 0, ctl := t.ctl }
        ∧ t.req = .readByte
        ∧ (s.ctl = .idTx → t.ctl = .idRx) ∧ (s.ctl = .regTx → t.ctl = .regRx)
        ∧ (s.ctl = .pollTx → t.ctl = .pollRx)

/-- R220: an error or any other count than `tx_len` fails the session with `WRITE_ERROR`, recording the writing
state, with code 3 for the poll's write and 2 for the others; nothing else is recorded or changed. -/
def Obligations.FailedWriteRaisesWriteError : Prop :=
  ∀ (s : State) (e : Event) (rest : List Event), s.ctl.writing = true → s.inputs = e :: rest →
    (e = .writeErr ∨ ∃ n, n ≠ s.txLen.toNat ∧ e = .writeAck n) →
      step s = .next { s with
        inputs := rest, ctl := .failed, failReason := .writeError,
        failCode := if s.ctl = .pollTx then 3 else 2, failState := s.ctl }

/-- R174, with its inference that "`settle_cnt` is never 0 in these two states": a settle `Tick` with more than one
tick left counts down and changes nothing else; the last one clears the counter and runs the delay's command; and in
a legal state the counter of a settle delay is not 0. -/
def Obligations.SettleTickCountsDown : Prop :=
  ∀ (s : State) (rest : List Event), s.ctl.settling = true → s.inputs = .tick :: rest →
    (1 < s.settleCnt → step s = .next { s with inputs := rest, settleCnt := s.settleCnt - 1 })
      ∧ (s.settleCnt = 1 →
        step s = exec (if s.ctl = .reset then .identify else .register) (s.withInputs rest)
          ∧ ∃ t, step s = .next t ∧ t.settleCnt = 0)
      ∧ (s.Legal → s.settleCnt ≠ 0)

/-- A settle delay lasts exactly as many `Tick` events as the counter was loaded with: until the last of them
nothing but the counter changes, and the last one runs the delay's command. The acknowledged reset frame loads it
with `SETTLE_TICKS`, and conforming parameters make that at least 1 s between the first tick and the last (log 12
names the unit). -/
def Obligations.SettleDelayLastsItsTicks : Prop :=
  (∀ (s : State) (k : Nat) (rest : List Event), s.ctl.settling = true → s.settleCnt = k + 1 →
    s.inputs = List.replicate (k + 1) .tick ++ rest →
      (∀ j, j ≤ k → core.run j s =
        .next { s with settleCnt := k + 1 - j, inputs := List.replicate (k + 1 - j) .tick ++ rest })
      ∧ core.run (k + 1) s =
        exec (if s.ctl = .reset then .identify else .register) { s with settleCnt := 1, inputs := rest })
    ∧ ∀ (s : State) (rest : List Event), s.params.Conforming → s.ctl = .rstTx →
      s.inputs = .writeAck s.txLen.toNat :: (List.replicate s.params.settleTicks .tick ++ rest) →
        (∀ j, j < s.params.settleTicks → ∃ t, core.run (1 + j) s = .next t ∧ t.ctl = .reset ∧ t.req = .none)
        ∧ (∃ t, core.run (1 + s.params.settleTicks) s = .next t ∧ t.ctl = .idTx)
        ∧ 1000000000 ≤ (s.params.settleTicks - 1) * s.params.tickNs

/-! ### The reader -/

/-- R144, R145, R146: a received byte is stored at `rx_count` and counted; the read ends on the pair `0A 0D` of this
read, tested first, or on the 256th byte, and goes on otherwise; an ended read is traced, and accepted or failed by
its count. Nothing else changes. -/
def Obligations.ReceivedByteIsStoredAndTested : Prop :=
  ∀ (s : State) (b : Byte) (rest : List Event), s.ctl.reading = true → s.backoffCnt = 0 →
    s.rxCount.toNat < 256 → s.inputs = .rxByte b :: rest →
      ∃ t, step s = .next t
        ∧ t = { s with
                inputs := rest, rxBuf := t.rxBuf, rxCount := s.rxCount + 1, rxTerm := t.rxTerm,
                emptyCnt := if s.params.emptyResetOnByte then 0 else s.emptyCnt, ctl := t.ctl, trace := t.trace,
                settleCnt := t.settleCnt, failReason := t.failReason, failCode := t.failCode,
                failState := t.failState }
        ∧ t.rxCount.toNat = s.rxCount.toNat + 1
        ∧ t.rxByte s.rxCount.toNat = b ∧ (∀ a, a ≠ s.rxCount.toNat → t.rxByte a = s.rxByte a)
        ∧ (let pair := 1 ≤ s.rxCount.toNat ∧ s.rxByte (s.rxCount.toNat - 1) = 0x0A ∧ b = 0x0D
          (pair → t.rxTerm = true) ∧ (¬pair → t.rxTerm = s.rxTerm)
            ∧ (¬pair → s.rxCount.toNat + 1 < 256 →
              t.ctl = s.ctl ∧ t.trace = s.trace ∧ t.settleCnt = s.settleCnt ∧ t.failReason = s.failReason
                ∧ t.failCode = s.failCode ∧ t.failState = s.failState ∧ t.req = .readByte)
            ∧ (pair ∨ s.rxCount.toNat + 1 = 256 →
              t.trace = s.trace ++ [.rx t.lastResponse]
                ∧ if s.rxCount.toNat + 1 < 7 then
                    t.ctl = .failed ∧ t.failReason = .shortResponse ∧ t.failState = s.ctl
                      ∧ t.failCode = (if s.ctl = .pollRx then 3 else 2) ∧ t.settleCnt = s.settleCnt
                  else
                    t.failReason = s.failReason ∧ t.failCode = s.failCode ∧ t.failState = s.failState
                      ∧ (s.ctl = .idRx → t.ctl = .identified ∧ t.settleCnt = s.params.settleTicks)
                      ∧ (s.ctl = .regRx → t.ctl = .registered ∧ t.settleCnt = s.settleCnt)
                      ∧ (s.ctl = .pollRx → t.ctl = .polled ∧ t.settleCnt = s.settleCnt)))

/-- R181, R182, R193, R194, R199, R200: what a completed read leads to in each reading state, on the traced state.
-/
def Obligations.CompletedReadIsCheckedByItsCount : Prop :=
  ∀ s : State,
    (7 ≤ s.rxCount.toNat → s.ctl = .idRx → s.readDone =
      { s.emit (.rx s.lastResponse) with settleCnt := s.params.settleTicks, ctl := .identified })
    ∧ (s.rxCount.toNat < 7 → s.ctl = .idRx → s.readDone =
      { s.emit (.rx s.lastResponse) with
        failReason := .shortResponse, failCode := 2, failState := .idRx, ctl := .failed })
    ∧ (7 ≤ s.rxCount.toNat → s.ctl = .regRx → s.readDone =
      { s.emit (.rx s.lastResponse) with ctl := .registered })
    ∧ (s.rxCount.toNat < 7 → s.ctl = .regRx → s.readDone =
      { s.emit (.rx s.lastResponse) with
        failReason := .shortResponse, failCode := 2, failState := .regRx, ctl := .failed })
    ∧ (7 ≤ s.rxCount.toNat → s.ctl = .pollRx → s.readDone =
      { s.emit (.rx s.lastResponse) with ctl := .polled })
    ∧ (s.rxCount.toNat < 7 → s.ctl = .pollRx → s.readDone =
      { s.emit (.rx s.lastResponse) with
        failReason := .shortResponse, failCode := 3, failState := .pollRx, ctl := .failed })

/-- R148 with R150: an empty poll is counted; the poll that reaches the budget ends the read, which is then traced
and checked by its count with `rx_term` as it was; an earlier one starts a back-off, with no read outstanding. -/
def Obligations.EmptyPollBacksOffOrGivesUp : Prop :=
  ∀ (s : State) (rest : List Event), s.ctl.reading = true → s.backoffCnt = 0 → s.inputs = .rxEmpty :: rest →
    (s.emptyCnt + 1 < s.params.retryBudget →
      ∃ t, step s = .next t
        ∧ t = { s with inputs := rest, emptyCnt := s.emptyCnt + 1, backoffCnt := s.params.backoffTicks }
        ∧ (1 ≤ s.params.backoffTicks → t.req = .none))
    ∧ (s.params.retryBudget ≤ s.emptyCnt + 1 →
      ∃ t, step s = .next t ∧ t = State.readDone { s with inputs := rest, emptyCnt := s.emptyCnt + 1 }
        ∧ t.rxTerm = s.rxTerm ∧ t.rxCount = s.rxCount ∧ t.ctl.reading = false
        ∧ t.trace = s.trace ++ [.rx s.lastResponse])

/-- R147: a `Tick` of a back-off counts it down, a byte is requested again when it reaches 0, and with none running
nothing changes. -/
def Obligations.BackoffTickCountsDown : Prop :=
  ∀ (s : State) (rest : List Event), s.ctl.reading = true → s.inputs = .tick :: rest →
    (0 < s.backoffCnt →
      ∃ t, step s = .next t ∧ t = { s with inputs := rest, backoffCnt := s.backoffCnt - 1 }
        ∧ (s.backoffCnt = 1 → t.req = .readByte) ∧ (1 < s.backoffCnt → t.req = .none))
    ∧ (s.backoffCnt = 0 → step s = .next (s.withInputs rest))

/-- R149, R221: a read error aborts the read in the same step, with no trace record; the reading state is recorded,
the count is kept, and the code is 3 in the poll's read and 2 in the others. -/
def Obligations.ReadErrorAbortsTheRead : Prop :=
  ∀ (s : State) (rest : List Event), s.ctl.reading = true → s.backoffCnt = 0 → s.inputs = .rxErr :: rest →
    step s = .next { s with
      inputs := rest, ctl := .failed, failReason := .readError,
      failCode := if s.ctl = .pollRx then 3 else 2, failState := s.ctl }

/-- The spec's own inference R152: a stream that ends in its first `0A 0D` pair, delivered with the counted empty
polls below the budget, ends the read exactly there, terminated, and no further byte is requested; delivered byte
after byte it does so for certain. -/
def Obligations.ReadEndsAtTheFirstTerminator : Prop :=
  (∀ (s t : State) (events rest : List Event), s.ctl.reading = true → s.rxCount = 0 → s.rxTerm = false →
    EndsAtFirstPair (receivedBytes events) →
    (∀ e, e ∈ events → e = .start ∨ e = .tick ∨ e = .rxEmpty ∨ ∃ b, e = .rxByte b) →
    (∃ b, events.getLast? = some (.rxByte b)) →
    BudgetKept s.params s.emptyCnt events → s.inputs = events ++ rest →
    core.run events.length s = .next t →
      t.rxCount.toNat = (receivedBytes events).length ∧ t.rxTerm = true ∧ t.req ≠ .readByte
        ∧ t.lastResponse = receivedBytes events ∧ t.inputs = rest)
    ∧ ∀ (s : State) (bytes : List Byte) (rest : List Event), s.ctl.reading = true → s.rxCount = 0 →
      s.backoffCnt = 0 → EndsAtFirstPair bytes → s.inputs = bytes.map .rxByte ++ rest →
        ∃ t, core.run bytes.length s = .next t ∧ t.rxCount.toNat = bytes.length ∧ t.rxTerm = true
          ∧ t.req ≠ .readByte ∧ t.lastResponse = bytes

/-! ### The end of a session -/

/-- "a poll response succeeds exactly when `rx_count ≥ 27`" (R203, derived in the spec from R199..R203). -/
def Obligations.PolledStepChecksTheTelemetryLength : Prop :=
  ∀ (s : State) (rest : List Event), s.ctl = .polled → s.inputs = .step :: rest →
    (27 ≤ s.rxCount.toNat → step s = .next { s with inputs := rest, ctl := .success })
      ∧ (s.rxCount.toNat < 27 → step s = .next { s with
          inputs := rest, ctl := .failed, failReason := .shortResponse, failCode := 3, failState := .polled })

/-- In `SUCCESS` and `FAILED` nothing but `Reset` changes any register, no request is outstanding, and no answer is
admissible (R204). (That an event with no step is refused is the model's choice, log 5.) -/
def Obligations.TerminalStatesAreLeftByResetOnly : Prop :=
  ∀ (s : State) (e : Event) (rest : List Event), s.ctl = .success ∨ s.ctl = .failed → s.inputs = e :: rest →
    s.req = .none
      ∧ (e = .start ∨ e = .tick → step s = .next (s.withInputs rest))
      ∧ (e ≠ .start → e ≠ .tick → e ≠ .reset → ∃ r, step s = .refused r)

/-- R205: in `SUCCESS` the block presents ten unsigned words, each the big-endian view of two bytes of the response,
and in a legal state all of them come from received bytes. -/
def Obligations.TelemetryWordsAreBigEndianViews : Prop :=
  ∀ s : State, s.ctl = .success →
    ∃ words, s.telemetry = some words ∧ words.length = 10
      ∧ (∀ i, i < 10 → (words[i]?).map BitVec.toNat =
          some ((s.rxByte (7 + 2 * i)).toNat * 256 + (s.rxByte (8 + 2 * i)).toNat))
      ∧ (s.Legal → ∀ a, 7 ≤ a → a < 27 → s.rxBuf.read? a = some (s.rxByte a))

/-- R36: the derived flags; in a legal `FAILED` the result code is 2 or 3. The block owns the link exactly while it is
busy (R45(c)). -/
def Obligations.DerivedFlagsFollowCtl : Prop :=
  ∀ s : State,
    (s.busy = true ↔ s.ctl ≠ .idle ∧ s.ctl ≠ .success ∧ s.ctl ≠ .failed)
      ∧ (s.done = true ↔ s.ctl = .success ∨ s.ctl = .failed)
      ∧ (s.ctl = .failed → s.resultCode = s.failCode) ∧ (s.ctl ≠ .failed → s.resultCode = 0)
      ∧ (s.Legal → s.ctl = .failed → s.resultCode = 2 ∨ s.resultCode = 3)
      ∧ s.linkOwn = s.busy

/-- STATUS holds each field at its place in Table T6, is a function of the registers shown, and reads 0 at reset
(R37; "At reset it reads `0x00000000`" is derived there). -/
def Obligations.StatusPacksTableT6 : Prop :=
  (∀ s : State,
    s.status.extractLsb' 0 4 = s.ctl.code ∧ s.status.getLsbD 4 = s.busy ∧ s.status.getLsbD 5 = s.done
      ∧ s.status.extractLsb' 6 2 = s.resultCode ∧ s.status.extractLsb' 8 3 = s.failReason.code
      ∧ s.status.extractLsb' 11 4 = s.failState.code ∧ s.status.getLsbD 15 = s.rxTerm
      ∧ s.status.extractLsb' 16 9 = s.rxCount ∧ s.status.extractLsb' 25 7 = 0#7)
    ∧ (∀ s t : State, s.ctl = t.ctl → s.failCode = t.failCode → s.failReason = t.failReason →
      s.failState = t.failState → s.rxTerm = t.rxTerm → s.rxCount = t.rxCount → s.status = t.status)
    ∧ State.reset.status = 0x00000000#32

/-! ### Failures -/

/-- The pseudocode of R226 and the codes of Table T11: failure entry writes the four failure fields and nothing
else; no request is outstanding, the link is given up, and no telemetry is shown. -/
def Obligations.FailureEntryWritesItsRecord : Prop :=
  ∀ (s : State) (reason : FailReason),
    s.raiseFailure reason = { s with
      failReason := reason,
      failCode := if s.ctl = .pollTx ∨ s.ctl = .pollRx ∨ s.ctl = .polled then 3 else 2,
      failState := s.ctl, ctl := .failed }
      ∧ (s.raiseFailure reason).req = .none ∧ (s.raiseFailure reason).linkOwn = false
      ∧ (s.raiseFailure reason).telemetry = none

/-- A step that fails a legal session records the state it was in, with both timers at 0, and what was received. -/
def Obligations.FailingStepRecordsItsState : Prop :=
  ∀ s t : State, s.Legal → step s = .next t → s.ctl ≠ .failed → t.ctl = .failed →
    t.failState = s.ctl ∧ t.backoffCnt = 0 ∧ t.settleCnt = 0 ∧ t.destAddr = s.destAddr
      ∧ (∀ e rest, s.inputs = e :: rest → (∀ b, e ≠ .rxByte b) → t.lastResponse = s.lastResponse)

/-- The spec's own inference R225: every failure a legal session comes to is a row of Table T12, and every row of it
can be come to. -/
def Obligations.FailuresAreThoseOfTableT12 : Prop :=
  (∀ s t : State, s.Legal → step s = .next t → t.ctl = .failed →
    (t.failState, t.failReason, t.failCode) ∈ failureTable)
    ∧ ∀ row, row ∈ failureTable → ∃ (s t : State) (e : Event), s.Legal ∧ s.ctl = row.1 ∧ s.inputs = [e]
      ∧ step s = .next t ∧ t.ctl = .failed ∧ (t.failState, t.failReason, t.failCode) = row

/-! ### Invariants of every step -/

/-- The reset state is legal. (The parameters it holds are the model's choice, log 3; that they keep Table T2 is all
this says of them.) -/
def Obligations.ResetStateIsLegal : Prop := State.reset.Legal

/-- Every step keeps the state legal, whatever the event: the buffers keep their form, the lengths their bounds, the
counters theirs, the address its rule, and the failure record is a row of Table T12. -/
def Obligations.EveryStepKeepsTheStateLegal : Prop :=
  ∀ s t : State, s.Legal → step s = .next t → t.Legal

/-- Every step keeps the received bytes delimited: the pair `0A 0D` stands only at their end, and there exactly when
`rx_term` says so. -/
def Obligations.EveryStepKeepsTheResponseDelimited : Prop :=
  State.reset.Delimited ∧ ∀ s t : State, s.Delimited → step s = .next t → t.Delimited

/-- Every step keeps the trace a beginning of a session's trace: RESET, IDENTIFY, the response, REGISTER of that
response's serial number, the response, POLL, the response, and nothing else. -/
def Obligations.EveryStepKeepsTheSessionInOrder : Prop :=
  State.reset.InSession ∧ ∀ s t : State, s.Legal → s.InSession → step s = .next t → t.InSession

/-- Whatever the environment sends, and whatever the parameters are, every state that a run from reset comes to is
legal, delimited and in its session; in `SUCCESS` the trace is a whole session's, of exactly four writes and three
reads. -/
def Obligations.EveryRunFollowsTheSession : Prop :=
  ∀ (p : Config.Params) (events : List Event) (k : Nat) (s : State), p.Runs →
    core.run k { State.reset with params := p, inputs := events } = .next s →
      s.Legal ∧ s.Delimited ∧ s.InSession
        ∧ (s.ctl = .success → ∃ a b, s.trace = sessionTrace a b s.lastResponse)

/-- Every write issued carries a command: a `TraceTx` record that a legal session's step adds is the encoding of a
well-formed frame, and that frame's write is then outstanding. -/
def Obligations.EveryFrameSentIsACommand : Prop :=
  ∀ (s t : State) (frame : List Byte), s.Legal → step s = .next t →
    t.trace = s.trace ++ [.tx frame] → t.req = .write frame ∧ ∃ f : Frame, f.wellFormed = true ∧ frame = encodeFrame f

/-- R24 with R250: `dest_addr` is changed by `Reset` and by POLL in `REGISTERED` only, and in a legal state it is 0
while the reset, identify and register frames are written and 1 while the poll frame is. -/
def Obligations.OnlyPollWritesTheDestination : Prop :=
  (∀ (s t : State) (e : Event) (rest : List Event), s.inputs = e :: rest → step s = .next t →
    t.destAddr ≠ s.destAddr → (e = .reset ∧ t.destAddr = 0x00) ∨ (s.ctl = .registered ∧ e = .step ∧ t.destAddr = 0x01))
    ∧ ∀ s : State, s.Legal → (s.destAddr = 0x00 ∨ s.destAddr = 0x01)
      ∧ (s.ctl = .rstTx ∨ s.ctl = .idTx ∨ s.ctl = .regTx → s.destAddr = 0x00)
      ∧ (s.ctl = .pollTx → s.destAddr = 0x01)

/-- Who writes the buffers: a byte of `rx_buf` changes only by `RxByte`, at `rx_count`, and by `Reset`; a byte of
`tx_buf` changes only below the length of a frame that the step builds and whose write it issues (no write was
outstanding before it, and the frame is traced in it), and by `Reset`. -/
def Obligations.BuffersAreWrittenByTheirOwnersOnly : Prop :=
  ∀ (s t : State) (e : Event) (rest : List Event) (a : Nat), s.inputs = e :: rest → step s = .next t →
    e ≠ .reset →
      (t.rxByte a ≠ s.rxByte a → (∃ b, e = .rxByte b) ∧ a = s.rxCount.toNat)
      ∧ (t.txByte a ≠ s.txByte a →
        s.ctl.writing = false ∧ t.req = .write t.txFrame ∧ t.trace = s.trace ++ [.tx t.txFrame] ∧ a < t.txLen.toNat)

/-- No step writes the parameters: they are arguments of the machine, not its state (R41). -/
def Obligations.NoStepChangesTheParameters : Prop :=
  ∀ s t : State, step s = .next t → t.params = s.params

/-- The source's states are gone through in their order, and a session is left by `Reset` only. -/
def Obligations.SourceStatesFollowTheirOrder : Prop :=
  ∀ (s t : State) (e : Event) (rest : List Event), s.inputs = e :: rest → step s = .next t →
    e ≠ .reset → s.ctl.sourceState.mayFollow t.ctl.sourceState = true

/-! ### Progress and what nothing depends on -/

/-- Every event that moves a legal session on takes it nearer its end, every other admitted event but `Reset`
changes nothing but the coming events, and a session that is not at its end has an event that moves it on: so it
ends after at most as many such events as its rank, and without them it does not move (R260). -/
def Obligations.EveryProgressingEventNearsTheEnd : Prop :=
  (∀ (s t : State) (e : Event) (rest : List Event), s.Legal → s.inputs = e :: rest → step s = .next t →
    (s.progresses e = true → t.rank < s.rank)
      ∧ (s.progresses e = false → e ≠ .reset → t = s.withInputs rest))
    ∧ ∀ s : State, s.Legal → s.ctl ≠ .success → s.ctl ≠ .failed →
      ∃ e, ∃ t, s.progresses e = true ∧ step (s.withInputs [e]) = .next t

/-- The trace never affects control flow: a step from a state with another trace answers the same, but for the
trace. -/
def Obligations.TraceNeverAffectsTheStep : Prop :=
  ∀ (s : State) (other : List TraceRecord),
    (∀ t, step s = .next t →
      ∃ u, step { s with trace := other } = .next u ∧ u = { t with trace := u.trace })
    ∧ (∀ f, step s = .fault f → step { s with trace := other } = .fault f)
    ∧ (∀ r, step s = .refused r → step { s with trace := other } = .refused r)

/-- Stale and unspecified bytes are never read: two states that agree on every register, the frame and the response
step alike, whatever the other bytes of their buffers hold. -/
def Obligations.StaleBytesAreNeverRead : Prop :=
  ∀ s t : State, s.Alike t → OutcomesAlike (step s) (step t)
end

