-- ==== Sys2Proof/Laws/Decode.lean ====
section
/-! SUPPORT. The laws of the byte-order helpers, CHECKSUM and the command decoder. -/

namespace Sys2Proof

/-- The natural number a 16-bit view of two bytes stands for (R65). -/
theorem beWord_toNat (hi lo : Byte) : (beWord hi lo).toNat = hi.toNat * 256 + lo.toNat := by
  have h1 : beWord hi lo = hi ++ lo := by
    unfold beWord
    ext i
    simp
    grind
  rw [h1, BitVec.toNat_append, Nat.shiftLeft_eq, Nat.or_comm]
  have := lo.isLt
  rw [Nat.mul_comm, Nat.or_comm, ← Nat.two_pow_add_eq_or_of_lt (by omega)]

theorem hiByte_toNat (w : Word) : (hiByte w).toNat = w.toNat / 256 := by
  have := w.isLt
  simp [hiByte, Nat.shiftRight_eq_div_pow]
  omega

theorem loByte_toNat (w : Word) : (loByte w).toNat = w.toNat % 256 := by
  simp [loByte]

/-- A word split into its bytes is joined again. -/
@[simp] theorem beWord_hiByte_loByte (w : Word) : beWord (hiByte w) (loByte w) = w := by
  apply BitVec.eq_of_toNat_eq
  rw [beWord_toNat, hiByte_toNat, loByte_toNat]
  omega

/-- Two bytes joined into a word are its bytes. -/
@[simp] theorem hiByte_beWord (hi lo : Byte) : hiByte (beWord hi lo) = hi := by
  apply BitVec.eq_of_toNat_eq
  have := lo.isLt
  rw [hiByte_toNat, beWord_toNat]
  omega

@[simp] theorem loByte_beWord (hi lo : Byte) : loByte (beWord hi lo) = lo := by
  apply BitVec.eq_of_toNat_eq
  have := lo.isLt
  rw [loByte_toNat, beWord_toNat]
  omega

/-- What the accumulation of R111 does: it adds the byte sum modulo 65536. -/
theorem foldl_csumAdd_toNat (bytes : List Byte) (acc : Word) :
    (bytes.foldl csumAdd acc).toNat = (acc.toNat + (bytes.map BitVec.toNat).sum) % 65536 := by
  induction bytes generalizing acc with
  | nil =>
    have := acc.isLt
    simp
    omega
  | cons b bytes ih =>
    have hb := b.isLt
    rw [List.foldl_cons, ih, csumAdd, BitVec.toNat_add, List.map_cons, List.sum_cons, BitVec.toNat_setWidth]
    omega

@[simp] theorem coveredBytes_length (src dest control function : Byte) (payload : List Byte) :
    (coveredBytes src dest control function payload).length = 7 + payload.length := by
  simp [coveredBytes]
  omega

@[simp] theorem frameBytes_length (src dest control function : Byte) (payload : List Byte) :
    (frameBytes src dest control function payload).length = 11 + payload.length := by
  simp [frameBytes]
  omega

/-- The command decoder reads every command's own bytes. -/
@[simp] theorem decodeCommand_encoded (i : Instr) : decodeCommand i.control i.function = .ok i := by
  cases i <;> decide

/-- The command decoder reads nothing else. -/
theorem decodeCommand_eq_ok {control function : Byte} {i : Instr} (h : decodeCommand control function = .ok i) :
    control = i.control ∧ function = i.function := by
  unfold decodeCommand at h
  split at h
  · cases h; assumption
  · split at h
    · cases h; assumption
    · split at h
      · cases h; assumption
      · split at h
        · cases h; assumption
        · cases h

/-- What the body decoder accepts: a payload of the declared length, its checksum and the terminator. -/
theorem decodeBody_eq_ok {header body payload rest : List Byte} {len : Nat}
    (h : decodeBody header len body = .ok (payload, rest)) :
    payload.length = len ∧ body = payload ++ [hiByte (csum (header ++ payload)), loByte (csum (header ++ payload)),
      Config.term0, Config.term1] ++ rest := by
  unfold decodeBody at h
  split at h
  next hi lo t0 t1 more hd =>
    dsimp only at h
    split at h
    · cases h
    next hc =>
      split at h
      · cases h
      next ht =>
        cases h
        rw [not_or, not_not, not_not] at ht
        rw [not_not] at hc
        have hlen : (body.drop len).length = rest.length + 4 := by rw [hd]; simp
        rw [List.length_drop] at hlen
        refine ⟨by rw [List.length_take]; omega, ?_⟩
        rw [← hc, hiByte_beWord, loByte_beWord, ← ht.1, ← ht.2]
        conv_lhs => rw [← List.take_append_drop len body, hd]
        simp
  · cases h

/-- The body decoder accepts what the format puts after a header. -/
theorem decodeBody_encoded (header payload rest : List Byte) :
    decodeBody header payload.length (payload ++ [hiByte (csum (header ++ payload)),
      loByte (csum (header ++ payload)), Config.term0, Config.term1] ++ rest) = .ok (payload, rest) := by
  simp [decodeBody]

end Sys2Proof
end

