-- ==== Sys2Proof/Laws/Memory.lean ====
section
/-! SUPPORT. The laws of the two buffers: what a read sees after a write, and that every write keeps the form. -/

namespace Sys2Proof.Machine

@[simp] theorem Memory.read?_nil (i : Nat) : Memory.read? [] i = none := rfl

theorem Memory.read?_cons (c : Host.Cell) (m : Memory) (i : Nat) :
    Memory.read? (c :: m) i = if c.1 = i then some c.2 else m.read? i := rfl

@[simp] theorem Memory.writeBytes_nil (m : Memory) (i : Nat) : m.writeBytes i [] = m := rfl

@[simp] theorem Memory.writeBytes_cons (m : Memory) (i : Nat) (b : Byte) (bs : List Byte) :
    m.writeBytes i (b :: bs) = (m.write i b).writeBytes (i + 1) bs := rfl

/-- A byte written is read back, and every other index is left alone. -/
@[simp] theorem Memory.read?_write (m : Memory) (i j : Nat) (b : Byte) :
    (m.write i b).read? j = if i = j then some b else m.read? j := by
  induction m with
  | nil => simp only [Memory.write, Memory.read?]
  | cons c m ih =>
    unfold Memory.write
    by_cases h1 : i < c.1
    · simp only [if_pos h1, Memory.read?_cons]
    · by_cases h2 : i = c.1
      · subst h2
        simp only [lt_irrefl, if_false, if_true, Memory.read?_cons]
        split <;> rfl
      · simp only [if_neg h1, if_neg h2, Memory.read?_cons, ih]
        by_cases h3 : c.1 = j
        · have : i ≠ j := fun h => h2 (h.trans h3.symm)
          simp [h3, this]
        · simp [h3]

/-- A run of bytes written is read back byte by byte, and every index outside the run is left alone. -/
theorem Memory.read?_writeBytes (m : Memory) (i j : Nat) (bs : List Byte) :
    (m.writeBytes i bs).read? j = if i ≤ j ∧ j < i + bs.length then bs[j - i]? else m.read? j := by
  induction bs generalizing m i with
  | nil =>
    have : ¬(i ≤ j ∧ j < i) := by omega
    simp [this]
  | cons b bs ih =>
    rw [Memory.writeBytes_cons, ih, Memory.read?_write]
    by_cases h : i = j
    · subst h
      simp
    · by_cases h2 : i + 1 ≤ j ∧ j < i + 1 + bs.length
      · have h3 : i ≤ j ∧ j < i + (b :: bs).length := by simp; omega
        have h4 : j - i = (j - (i + 1)) + 1 := by omega
        rw [if_pos h2, if_pos h3, h4, List.getElem?_cons_succ]
      · have h3 : ¬(i ≤ j ∧ j < i + (b :: bs).length) := by simp; omega
        rw [if_neg h2, if_neg h3, if_neg h]

theorem Memory.mem_write {m : Memory} {i : Nat} {b : Byte} {c : Host.Cell} (h : c ∈ m.write i b) :
    c = (i, b) ∨ c ∈ m := by
  induction m with
  | nil => simpa [Memory.write] using h
  | cons d m ih =>
    unfold Memory.write at h
    split at h
    · simpa using h
    · split at h
      · rcases List.mem_cons.mp h with h | h
        · exact .inl h
        · exact .inr (List.mem_cons_of_mem _ h)
      · rcases List.mem_cons.mp h with h | h
        · exact .inr (h ▸ List.mem_cons_self)
        · exact (ih h).imp id (List.mem_cons_of_mem _)

/-- Every write inside the 256 bytes keeps the form. -/
theorem Memory.wf_write {m : Memory} {i : Nat} {b : Byte} (hm : m.wf) (hi : i < 256) : (m.write i b).wf := by
  refine ⟨?_, fun c hc => ?_⟩
  · obtain ⟨hp, -⟩ := hm
    induction m with
    | nil => simp [Memory.write]
    | cons d m ih =>
      obtain ⟨hd, hp⟩ := List.pairwise_cons.mp hp
      unfold Memory.write
      split
      next h =>
        refine List.pairwise_cons.mpr ⟨fun c hc => ?_, List.pairwise_cons.mpr ⟨hd, hp⟩⟩
        rcases List.mem_cons.mp hc with rfl | hc
        · exact h
        · exact h.trans (hd c hc)
      next h =>
        split
        next h2 =>
          subst h2
          exact List.pairwise_cons.mpr ⟨hd, hp⟩
        next h2 =>
          refine List.pairwise_cons.mpr ⟨fun c hc => ?_, ih hp⟩
          rcases Memory.mem_write hc with rfl | hc
          · show d.1 < i
            omega
          · exact hd c hc
  · rcases Memory.mem_write hc with rfl | hc
    · exact hi
    · exact hm.2 c hc

/-- Every run of writes inside the 256 bytes keeps the form. -/
theorem Memory.wf_writeBytes {m : Memory} {i : Nat} {bs : List Byte} (hm : m.wf) (hi : i + bs.length ≤ 256) :
    (m.writeBytes i bs).wf := by
  induction bs generalizing m i with
  | nil => exact hm
  | cons b bs ih =>
    rw [List.length_cons] at hi
    exact ih (Memory.wf_write hm (by omega)) (by omega)

/-- In a buffer that keeps its form, a byte reads back exactly when its cell is listed. -/
theorem Memory.read?_eq_some_iff {m : Memory} (hm : m.wf) (i : Nat) (b : Byte) :
    m.read? i = some b ↔ (i, b) ∈ m := by
  obtain ⟨hp, -⟩ := hm
  induction m with
  | nil => simp
  | cons c m ih =>
    obtain ⟨hc, hp⟩ := List.pairwise_cons.mp hp
    rw [Memory.read?_cons, List.mem_cons]
    by_cases h : c.1 = i
    · have hn : (i, b) ∉ m := fun hm => absurd (hc _ hm) (by simp [h])
      rw [if_pos h]
      constructor
      · intro h2
        exact .inl (Prod.ext h.symm (Option.some.inj h2).symm)
      · rintro (h2 | h2)
        · rw [← h2]
        · exact absurd h2 hn
    · rw [if_neg h, ih hp]
      constructor
      · exact .inr
      · rintro (h2 | h2)
        · exact absurd (by rw [← h2]) h
        · exact h2

theorem State.reset_memory_wf : State.reset.txBuf.wf ∧ State.reset.rxBuf.wf := by decide

end Sys2Proof.Machine
end

