-- ==== Sys2Proof/Laws/State.lean ====
section
/-! SUPPORT. What each named update does to each field of State, one lemma per field. -/

namespace Sys2Proof.Machine

@[simp] theorem State.withInputs_ctl (s : State) (es : List Event) :
    (s.withInputs es).ctl = s.ctl := rfl
@[simp] theorem State.withInputs_destAddr (s : State) (es : List Event) :
    (s.withInputs es).destAddr = s.destAddr := rfl
@[simp] theorem State.withInputs_txBuf (s : State) (es : List Event) :
    (s.withInputs es).txBuf = s.txBuf := rfl
@[simp] theorem State.withInputs_txLen (s : State) (es : List Event) :
    (s.withInputs es).txLen = s.txLen := rfl
@[simp] theorem State.withInputs_rxBuf (s : State) (es : List Event) :
    (s.withInputs es).rxBuf = s.rxBuf := rfl
@[simp] theorem State.withInputs_rxCount (s : State) (es : List Event) :
    (s.withInputs es).rxCount = s.rxCount := rfl
@[simp] theorem State.withInputs_rxTerm (s : State) (es : List Event) :
    (s.withInputs es).rxTerm = s.rxTerm := rfl
@[simp] theorem State.withInputs_emptyCnt (s : State) (es : List Event) :
    (s.withInputs es).emptyCnt = s.emptyCnt := rfl
@[simp] theorem State.withInputs_backoffCnt (s : State) (es : List Event) :
    (s.withInputs es).backoffCnt = s.backoffCnt := rfl
@[simp] theorem State.withInputs_settleCnt (s : State) (es : List Event) :
    (s.withInputs es).settleCnt = s.settleCnt := rfl
@[simp] theorem State.withInputs_failCode (s : State) (es : List Event) :
    (s.withInputs es).failCode = s.failCode := rfl
@[simp] theorem State.withInputs_failReason (s : State) (es : List Event) :
    (s.withInputs es).failReason = s.failReason := rfl
@[simp] theorem State.withInputs_failState (s : State) (es : List Event) :
    (s.withInputs es).failState = s.failState := rfl
@[simp] theorem State.withInputs_trace (s : State) (es : List Event) :
    (s.withInputs es).trace = s.trace := rfl
@[simp] theorem State.withInputs_params (s : State) (es : List Event) :
    (s.withInputs es).params = s.params := rfl
@[simp] theorem State.withInputs_inputs (s : State) (es : List Event) :
    (s.withInputs es).inputs = es := rfl
@[simp] theorem State.withInputs_epoch (s : State) (es : List Event) :
    (s.withInputs es).epoch = s.epoch := rfl

@[simp] theorem State.emit_ctl (s : State) (r : TraceRecord) :
    (s.emit r).ctl = s.ctl := rfl
@[simp] theorem State.emit_destAddr (s : State) (r : TraceRecord) :
    (s.emit r).destAddr = s.destAddr := rfl
@[simp] theorem State.emit_txBuf (s : State) (r : TraceRecord) :
    (s.emit r).txBuf = s.txBuf := rfl
@[simp] theorem State.emit_txLen (s : State) (r : TraceRecord) :
    (s.emit r).txLen = s.txLen := rfl
@[simp] theorem State.emit_rxBuf (s : State) (r : TraceRecord) :
    (s.emit r).rxBuf = s.rxBuf := rfl
@[simp] theorem State.emit_rxCount (s : State) (r : TraceRecord) :
    (s.emit r).rxCount = s.rxCount := rfl
@[simp] theorem State.emit_rxTerm (s : State) (r : TraceRecord) :
    (s.emit r).rxTerm = s.rxTerm := rfl
@[simp] theorem State.emit_emptyCnt (s : State) (r : TraceRecord) :
    (s.emit r).emptyCnt = s.emptyCnt := rfl
@[simp] theorem State.emit_backoffCnt (s : State) (r : TraceRecord) :
    (s.emit r).backoffCnt = s.backoffCnt := rfl
@[simp] theorem State.emit_settleCnt (s : State) (r : TraceRecord) :
    (s.emit r).settleCnt = s.settleCnt := rfl
@[simp] theorem State.emit_failCode (s : State) (r : TraceRecord) :
    (s.emit r).failCode = s.failCode := rfl
@[simp] theorem State.emit_failReason (s : State) (r : TraceRecord) :
    (s.emit r).failReason = s.failReason := rfl
@[simp] theorem State.emit_failState (s : State) (r : TraceRecord) :
    (s.emit r).failState = s.failState := rfl
@[simp] theorem State.emit_trace (s : State) (r : TraceRecord) :
    (s.emit r).trace = s.trace ++ [r] := rfl
@[simp] theorem State.emit_params (s : State) (r : TraceRecord) :
    (s.emit r).params = s.params := rfl
@[simp] theorem State.emit_inputs (s : State) (r : TraceRecord) :
    (s.emit r).inputs = s.inputs := rfl
@[simp] theorem State.emit_epoch (s : State) (r : TraceRecord) :
    (s.emit r).epoch = s.epoch := rfl

@[simp] theorem State.storeFrame_ctl (s : State) (bs : List Byte) :
    (s.storeFrame bs).ctl = s.ctl := rfl
@[simp] theorem State.storeFrame_destAddr (s : State) (bs : List Byte) :
    (s.storeFrame bs).destAddr = s.destAddr := rfl
@[simp] theorem State.storeFrame_txBuf (s : State) (bs : List Byte) :
    (s.storeFrame bs).txBuf = s.txBuf.writeBytes 0 bs := rfl
@[simp] theorem State.storeFrame_txLen (s : State) (bs : List Byte) :
    (s.storeFrame bs).txLen = BitVec.ofNat 9 bs.length := rfl
@[simp] theorem State.storeFrame_rxBuf (s : State) (bs : List Byte) :
    (s.storeFrame bs).rxBuf = s.rxBuf := rfl
@[simp] theorem State.storeFrame_rxCount (s : State) (bs : List Byte) :
    (s.storeFrame bs).rxCount = s.rxCount := rfl
@[simp] theorem State.storeFrame_rxTerm (s : State) (bs : List Byte) :
    (s.storeFrame bs).rxTerm = s.rxTerm := rfl
@[simp] theorem State.storeFrame_emptyCnt (s : State) (bs : List Byte) :
    (s.storeFrame bs).emptyCnt = s.emptyCnt := rfl
@[simp] theorem State.storeFrame_backoffCnt (s : State) (bs : List Byte) :
    (s.storeFrame bs).backoffCnt = s.backoffCnt := rfl
@[simp] theorem State.storeFrame_settleCnt (s : State) (bs : List Byte) :
    (s.storeFrame bs).settleCnt = s.settleCnt := rfl
@[simp] theorem State.storeFrame_failCode (s : State) (bs : List Byte) :
    (s.storeFrame bs).failCode = s.failCode := rfl
@[simp] theorem State.storeFrame_failReason (s : State) (bs : List Byte) :
    (s.storeFrame bs).failReason = s.failReason := rfl
@[simp] theorem State.storeFrame_failState (s : State) (bs : List Byte) :
    (s.storeFrame bs).failState = s.failState := rfl
@[simp] theorem State.storeFrame_trace (s : State) (bs : List Byte) :
    (s.storeFrame bs).trace = s.trace := rfl
@[simp] theorem State.storeFrame_params (s : State) (bs : List Byte) :
    (s.storeFrame bs).params = s.params := rfl
@[simp] theorem State.storeFrame_inputs (s : State) (bs : List Byte) :
    (s.storeFrame bs).inputs = s.inputs := rfl
@[simp] theorem State.storeFrame_epoch (s : State) (bs : List Byte) :
    (s.storeFrame bs).epoch = s.epoch := rfl

@[simp] theorem State.storeByte_ctl (s : State) (b : Byte) :
    (s.storeByte b).ctl = s.ctl := rfl
@[simp] theorem State.storeByte_destAddr (s : State) (b : Byte) :
    (s.storeByte b).destAddr = s.destAddr := rfl
@[simp] theorem State.storeByte_txBuf (s : State) (b : Byte) :
    (s.storeByte b).txBuf = s.txBuf := rfl
@[simp] theorem State.storeByte_txLen (s : State) (b : Byte) :
    (s.storeByte b).txLen = s.txLen := rfl
@[simp] theorem State.storeByte_rxBuf (s : State) (b : Byte) :
    (s.storeByte b).rxBuf = s.rxBuf.write s.rxCount.toNat b := rfl
@[simp] theorem State.storeByte_rxCount (s : State) (b : Byte) :
    (s.storeByte b).rxCount = s.rxCount + 1 := rfl
@[simp] theorem State.storeByte_rxTerm (s : State) (b : Byte) :
    (s.storeByte b).rxTerm = s.rxTerm := rfl
@[simp] theorem State.storeByte_emptyCnt (s : State) (b : Byte) :
    (s.storeByte b).emptyCnt = s.emptyCnt := rfl
@[simp] theorem State.storeByte_backoffCnt (s : State) (b : Byte) :
    (s.storeByte b).backoffCnt = s.backoffCnt := rfl
@[simp] theorem State.storeByte_settleCnt (s : State) (b : Byte) :
    (s.storeByte b).settleCnt = s.settleCnt := rfl
@[simp] theorem State.storeByte_failCode (s : State) (b : Byte) :
    (s.storeByte b).failCode = s.failCode := rfl
@[simp] theorem State.storeByte_failReason (s : State) (b : Byte) :
    (s.storeByte b).failReason = s.failReason := rfl
@[simp] theorem State.storeByte_failState (s : State) (b : Byte) :
    (s.storeByte b).failState = s.failState := rfl
@[simp] theorem State.storeByte_trace (s : State) (b : Byte) :
    (s.storeByte b).trace = s.trace := rfl
@[simp] theorem State.storeByte_params (s : State) (b : Byte) :
    (s.storeByte b).params = s.params := rfl
@[simp] theorem State.storeByte_inputs (s : State) (b : Byte) :
    (s.storeByte b).inputs = s.inputs := rfl
@[simp] theorem State.storeByte_epoch (s : State) (b : Byte) :
    (s.storeByte b).epoch = s.epoch := rfl

@[simp] theorem State.raiseFailure_ctl (s : State) (r : FailReason) :
    (s.raiseFailure r).ctl = .failed := rfl
@[simp] theorem State.raiseFailure_destAddr (s : State) (r : FailReason) :
    (s.raiseFailure r).destAddr = s.destAddr := rfl
@[simp] theorem State.raiseFailure_txBuf (s : State) (r : FailReason) :
    (s.raiseFailure r).txBuf = s.txBuf := rfl
@[simp] theorem State.raiseFailure_txLen (s : State) (r : FailReason) :
    (s.raiseFailure r).txLen = s.txLen := rfl
@[simp] theorem State.raiseFailure_rxBuf (s : State) (r : FailReason) :
    (s.raiseFailure r).rxBuf = s.rxBuf := rfl
@[simp] theorem State.raiseFailure_rxCount (s : State) (r : FailReason) :
    (s.raiseFailure r).rxCount = s.rxCount := rfl
@[simp] theorem State.raiseFailure_rxTerm (s : State) (r : FailReason) :
    (s.raiseFailure r).rxTerm = s.rxTerm := rfl
@[simp] theorem State.raiseFailure_emptyCnt (s : State) (r : FailReason) :
    (s.raiseFailure r).emptyCnt = s.emptyCnt := rfl
@[simp] theorem State.raiseFailure_backoffCnt (s : State) (r : FailReason) :
    (s.raiseFailure r).backoffCnt = s.backoffCnt := rfl
@[simp] theorem State.raiseFailure_settleCnt (s : State) (r : FailReason) :
    (s.raiseFailure r).settleCnt = s.settleCnt := rfl
@[simp] theorem State.raiseFailure_failCode (s : State) (r : FailReason) :
    (s.raiseFailure r).failCode = s.ctl.failCode := rfl
@[simp] theorem State.raiseFailure_failReason (s : State) (r : FailReason) :
    (s.raiseFailure r).failReason = r := rfl
@[simp] theorem State.raiseFailure_failState (s : State) (r : FailReason) :
    (s.raiseFailure r).failState = s.ctl := rfl
@[simp] theorem State.raiseFailure_trace (s : State) (r : FailReason) :
    (s.raiseFailure r).trace = s.trace := rfl
@[simp] theorem State.raiseFailure_params (s : State) (r : FailReason) :
    (s.raiseFailure r).params = s.params := rfl
@[simp] theorem State.raiseFailure_inputs (s : State) (r : FailReason) :
    (s.raiseFailure r).inputs = s.inputs := rfl
@[simp] theorem State.raiseFailure_epoch (s : State) (r : FailReason) :
    (s.raiseFailure r).epoch = s.epoch := rfl

@[simp] theorem State.startRead_ctl (s : State) :
    (s.startRead).ctl = s.ctl := rfl
@[simp] theorem State.startRead_destAddr (s : State) :
    (s.startRead).destAddr = s.destAddr := rfl
@[simp] theorem State.startRead_txBuf (s : State) :
    (s.startRead).txBuf = s.txBuf := rfl
@[simp] theorem State.startRead_txLen (s : State) :
    (s.startRead).txLen = s.txLen := rfl
@[simp] theorem State.startRead_rxBuf (s : State) :
    (s.startRead).rxBuf = s.rxBuf := rfl
@[simp] theorem State.startRead_rxCount (s : State) :
    (s.startRead).rxCount = 0 := rfl
@[simp] theorem State.startRead_rxTerm (s : State) :
    (s.startRead).rxTerm = false := rfl
@[simp] theorem State.startRead_emptyCnt (s : State) :
    (s.startRead).emptyCnt = 0 := rfl
@[simp] theorem State.startRead_backoffCnt (s : State) :
    (s.startRead).backoffCnt = 0 := rfl
@[simp] theorem State.startRead_settleCnt (s : State) :
    (s.startRead).settleCnt = s.settleCnt := rfl
@[simp] theorem State.startRead_failCode (s : State) :
    (s.startRead).failCode = s.failCode := rfl
@[simp] theorem State.startRead_failReason (s : State) :
    (s.startRead).failReason = s.failReason := rfl
@[simp] theorem State.startRead_failState (s : State) :
    (s.startRead).failState = s.failState := rfl
@[simp] theorem State.startRead_trace (s : State) :
    (s.startRead).trace = s.trace := rfl
@[simp] theorem State.startRead_params (s : State) :
    (s.startRead).params = s.params := rfl
@[simp] theorem State.startRead_inputs (s : State) :
    (s.startRead).inputs = s.inputs := rfl
@[simp] theorem State.startRead_epoch (s : State) :
    (s.startRead).epoch = s.epoch := rfl

@[simp] theorem State.afterReset_ctl (s : State) :
    (s.afterReset).ctl = .idle := rfl
@[simp] theorem State.afterReset_destAddr (s : State) :
    (s.afterReset).destAddr = 0x00 := rfl
@[simp] theorem State.afterReset_txBuf (s : State) :
    (s.afterReset).txBuf = [] := rfl
@[simp] theorem State.afterReset_txLen (s : State) :
    (s.afterReset).txLen = 0 := rfl
@[simp] theorem State.afterReset_rxBuf (s : State) :
    (s.afterReset).rxBuf = [] := rfl
@[simp] theorem State.afterReset_rxCount (s : State) :
    (s.afterReset).rxCount = 0 := rfl
@[simp] theorem State.afterReset_rxTerm (s : State) :
    (s.afterReset).rxTerm = false := rfl
@[simp] theorem State.afterReset_emptyCnt (s : State) :
    (s.afterReset).emptyCnt = 0 := rfl
@[simp] theorem State.afterReset_backoffCnt (s : State) :
    (s.afterReset).backoffCnt = 0 := rfl
@[simp] theorem State.afterReset_settleCnt (s : State) :
    (s.afterReset).settleCnt = 0 := rfl
@[simp] theorem State.afterReset_failCode (s : State) :
    (s.afterReset).failCode = 0 := rfl
@[simp] theorem State.afterReset_failReason (s : State) :
    (s.afterReset).failReason = .none := rfl
@[simp] theorem State.afterReset_failState (s : State) :
    (s.afterReset).failState = .idle := rfl
@[simp] theorem State.afterReset_trace (s : State) :
    (s.afterReset).trace = [] := rfl
@[simp] theorem State.afterReset_params (s : State) :
    (s.afterReset).params = s.params := rfl
@[simp] theorem State.afterReset_inputs (s : State) :
    (s.afterReset).inputs = s.inputs := rfl
@[simp] theorem State.afterReset_epoch (s : State) :
    (s.afterReset).epoch = s.epoch + 1 := rfl

end Sys2Proof.Machine
end

