-- ==== Sys2Proof/Laws/Ops.lean ====
section
/-! SUPPORT. What each shared operation can do, said once. -/

namespace Sys2Proof.Machine

@[simp] theorem State.srcAddr_eq (s : State) : s.srcAddr = 0x01 := rfl

/-- A written byte reads as written. -/
theorem State.txByte_of_read? {s : State} {i : Nat} {b : Byte} (h : s.txBuf.read? i = some b) : s.txByte i = b := by
  simp [State.txByte, Memory.byte, h]

theorem State.rxByte_of_read? {s : State} {i : Nat} {b : Byte} (h : s.rxBuf.read? i = some b) : s.rxByte i = b := by
  simp [State.rxByte, Memory.byte, h]

/-- Bytes read one by one from a place where a list stands are that list. -/
theorem map_range_eq_of_getElem? {f : Nat → Byte} {bs : List Byte} (h : ∀ i, i < bs.length → bs[i]? = some (f i)) :
    (List.range bs.length).map f = bs := by
  apply List.ext_getElem? fun i => ?_
  by_cases hi : i < bs.length
  · rw [h i hi]
    simp [hi]
  · simp [hi]

/-- A stored frame of at most 256 bytes is read back whole, and every byte above it is left alone (R116). -/
theorem State.storeFrame_txByte (s : State) (bs : List Byte) (i : Nat) :
    (s.storeFrame bs).txByte i = (bs[i]?).getD (s.txByte i) := by
  unfold State.txByte Memory.byte
  rw [State.storeFrame_txBuf, Memory.read?_writeBytes]
  by_cases h : i < bs.length
  · simp [h]
  · simp [h]

theorem State.storeFrame_txFrame (s : State) (bs : List Byte) (h : bs.length ≤ 256) :
    (s.storeFrame bs).txFrame = bs := by
  have hlen : (s.storeFrame bs).txLen.toNat = bs.length := by
    rw [State.storeFrame_txLen, BitVec.toNat_ofNat]
    omega
  unfold State.txFrame State.txBytes
  rw [hlen]
  apply map_range_eq_of_getElem?
  intro i hi
  rw [State.storeFrame_txByte]
  simp [hi]

/-- Storing a received byte changes that one byte of `rx_buf` (R144). -/
theorem State.storeByte_rxByte (s : State) (b : Byte) (i : Nat) :
    (s.storeByte b).rxByte i = if s.rxCount.toNat = i then b else s.rxByte i := by
  unfold State.rxByte Memory.byte
  rw [State.storeByte_rxBuf, Memory.read?_write, State.storeByte_epoch]
  split <;> rfl

theorem State.storeByte_rxCount_toNat (s : State) (b : Byte) (h : s.rxCount.toNat < 256) :
    (s.storeByte b).rxCount.toNat = s.rxCount.toNat + 1 := by
  rw [State.storeByte_rxCount, BitVec.toNat_add]
  simp
  omega

/-- The response after one more byte is stored. -/
theorem State.storeByte_lastResponse (s : State) (b : Byte) (h : s.rxCount.toNat < 256) :
    (s.storeByte b).lastResponse = s.lastResponse ++ [b] := by
  unfold State.lastResponse State.rxBytes
  rw [State.storeByte_rxCount_toNat s b h, List.range_succ, List.map_append]
  congr 1
  · apply List.map_congr_left
    intro k hk
    rw [List.mem_range] at hk
    rw [State.storeByte_rxByte, if_neg (by omega)]
  · simp [State.storeByte_rxByte]

/-- BUILD_REQUEST on a legal payload (R116). -/
theorem buildRequest_ok {control function : Byte} {payload : List Byte} {s : State} (h : payload.length ≤ 240) :
    buildRequest control function payload s =
      (.ok, s.storeFrame (frameBytes 0x01 s.destAddr control function payload)) := by
  simp [buildRequest, Nat.not_lt.mpr h]

/-- BUILD_REQUEST on an oversized payload (R117). -/
theorem buildRequest_refused {control function : Byte} {payload : List Byte} {s : State}
    (h : 240 < payload.length) : buildRequest control function payload s = (.refused, { s with txLen := 0 }) := by
  simp [buildRequest, h]

/-- The step that issues a write, on a legal payload (R116, R119). -/
theorem State.issue_ok {s : State} {control function : Byte} {payload : List Byte} {next : Ctl}
    (h : payload.length ≤ 240) :
    s.issue control function payload next =
      { s with
        ctl := next
        txBuf := s.txBuf.writeBytes 0 (frameBytes 0x01 s.destAddr control function payload)
        txLen := BitVec.ofNat 9 (11 + payload.length)
        trace := s.trace ++ [.tx (frameBytes 0x01 s.destAddr control function payload)] } := by
  have hlen : (frameBytes 0x01 s.destAddr control function payload).length ≤ 256 := by
    rw [frameBytes_length]
    omega
  simp only [State.issue, buildRequest_ok h, State.storeFrame_txFrame s _ hlen]
  simp [State.emit, State.storeFrame]

/-- The step that issues a write, on an oversized payload (R117). -/
theorem State.issue_refused {s : State} {control function : Byte} {payload : List Byte} {next : Ctl}
    (h : 240 < payload.length) :
    s.issue control function payload next = State.raiseFailure { s with txLen := 0 } .payloadTooLarge := by
  simp only [State.issue, buildRequest_refused h]

/-- The frame in the outbound buffer after a legal payload is issued (R116). -/
theorem State.issue_txFrame {s : State} {control function : Byte} {payload : List Byte} {next : Ctl}
    (h : payload.length ≤ 240) :
    (s.issue control function payload next).txFrame = frameBytes 0x01 s.destAddr control function payload := by
  have hlen : (frameBytes 0x01 s.destAddr control function payload).length ≤ 256 := by
    rw [frameBytes_length]
    omega
  rw [State.issue_ok h]
  conv_rhs => rw [← State.storeFrame_txFrame s _ hlen]
  simp only [State.txFrame, State.txBytes, State.txByte, State.storeFrame, frameBytes_length]

/-- The events admitted are `Start`, `Reset`, `Tick`, an answer to the outstanding request, and `Step` where the block
takes it (R43, R44). -/
theorem State.admits_iff_req (s : State) (e : Event) :
    s.admits e = true ↔
      match e with
      | .start | .reset | .tick => True
      | .writeAck _ | .writeErr => s.req = .write s.txFrame
      | .rxByte _ | .rxEmpty | .rxErr => s.req = .readByte
      | .step => s.ctl = .registered ∨ s.ctl = .polled := by
  have hr : s.ctl.writing = true → s.ctl.reading = false := by cases s.ctl <;> decide
  cases e <;> simp [State.admits, State.req]
  case step => cases s.ctl <;> simp [Ctl.stepping]
  all_goals
    cases hw : s.ctl.writing <;> simp_all
    try (split <;> simp)

/-- A read that completes is traced and then accepted or failed (R150). -/
theorem State.readDone_cases (s : State) :
    (7 ≤ s.rxCount.toNat ∧ s.readDone = (s.emit (.rx s.lastResponse)).acceptResponse)
      ∨ (s.rxCount.toNat < 7 ∧ s.readDone = (s.emit (.rx s.lastResponse)).raiseFailure .shortResponse) := by
  unfold State.readDone
  by_cases h : 7 ≤ s.rxCount.toNat
  · exact .inl ⟨h, if_pos h⟩
  · exact .inr ⟨by omega, if_neg h⟩

/-- What can follow a stored byte: the terminator, the cap, or more reading (R144..R146). -/
theorem State.afterByte_cases (s : State) :
    (s.terminated = true ∧ s.afterByte = State.readDone { s with rxTerm := true })
      ∨ (s.terminated = false ∧ s.rxCount.toNat = 256 ∧ s.afterByte = s.readDone)
      ∨ (s.terminated = false ∧ s.rxCount.toNat ≠ 256 ∧ s.afterByte = s) := by
  unfold State.afterByte
  cases h : s.terminated
  · by_cases h2 : s.rxCount.toNat = 256
    · exact .inr (.inl ⟨rfl, h2, by simp [h2]⟩)
    · exact .inr (.inr ⟨rfl, h2, by simp [h2]⟩)
  · exact .inl ⟨rfl, by simp⟩

/-- A received byte is stored where there is room for it, and nowhere else (R144, R60). -/
theorem onRxByte_cases (b : Byte) (s : State) :
    (s.rxCount.toNat < 256 ∧ onRxByte b s = .next (State.afterByte
        { s.storeByte b with emptyCnt := if s.params.emptyResetOnByte then 0 else s.emptyCnt }))
      ∨ (256 ≤ s.rxCount.toNat ∧ onRxByte b s = .fault (.bufferIndex s.rxCount.toNat)) := by
  unfold onRxByte
  by_cases h : s.rxCount.toNat < 256
  · exact .inl ⟨h, if_pos h⟩
  · exact .inr ⟨by omega, if_neg h⟩

/-- An empty poll ends the read or starts a back-off (R148). -/
theorem onRxEmpty_cases (s : State) :
    (s.params.retryBudget ≤ s.emptyCnt + 1 ∧ onRxEmpty s = State.readDone { s with emptyCnt := s.emptyCnt + 1 })
      ∨ (s.emptyCnt + 1 < s.params.retryBudget ∧
        onRxEmpty s = { s with emptyCnt := s.emptyCnt + 1, backoffCnt := s.params.backoffTicks }) := by
  unfold onRxEmpty
  by_cases h : s.params.retryBudget ≤ s.emptyCnt + 1
  · exact .inl ⟨h, if_pos h⟩
  · exact .inr ⟨by omega, if_neg h⟩

end Sys2Proof.Machine
end

