-- ==== Sys2Proof/Laws/PerInstr.lean ====
section
/-! SUPPORT. What holds of every command as syntax, one lemma per constructor. -/

namespace Sys2Proof.Laws

/-- A command's two bytes decode to it, in front of any bytes, and its table word (Table T8's opcode) decodes to it. -/
def CommandRoundTrip.Statement (i : Instr) : Prop :=
  (∀ rest, decode (encode i ++ rest) = .ok (i, rest)) ∧ decodeTableWord 16 i.opcode.toNat = some i

theorem CommandRoundTrip.reset : CommandRoundTrip.Statement .reset :=
  ⟨fun _ => rfl, by decide⟩

theorem CommandRoundTrip.identify : CommandRoundTrip.Statement .identify :=
  ⟨fun _ => rfl, by decide⟩

theorem CommandRoundTrip.register : CommandRoundTrip.Statement .register :=
  ⟨fun _ => rfl, by decide⟩

theorem CommandRoundTrip.poll : CommandRoundTrip.Statement .poll :=
  ⟨fun _ => rfl, by decide⟩

end Sys2Proof.Laws
end

