-- ==== Sys2Proof/Laws/Step.lean ====
section
/-! SUPPORT. What one step can do, said once. -/

namespace Sys2Proof.Machine

/-- With no event coming the block waits. -/
theorem step_of_inputs_nil {s : State} (h : s.inputs = []) : step s = .next s := by
  simp [step, h]

/-- A step takes the next event. -/
theorem step_of_inputs_cons {s : State} {e : Event} {rest : List Event} (h : s.inputs = e :: rest) :
    step s = stepOn e (s.withInputs rest) := by
  simp [step, h]

/-- Which events issue which command (Table T10). -/
theorem fetch_eq_some {s : State} {e : Event} {word : List Byte} (h : fetch s e = some word) :
    (s.ctl = .idle ∧ e = .start ∧ word = [0x30, 0x44])
      ∨ (s.ctl = .reset ∧ e = .tick ∧ s.settleCnt = 1 ∧ word = [0x30, 0x40])
      ∨ (s.ctl = .identified ∧ e = .tick ∧ s.settleCnt = 1 ∧ word = [0x30, 0x41])
      ∨ (s.ctl = .registered ∧ e = .step ∧ word = [0x31, 0x42]) := by
  unfold fetch at h
  split at h <;> try split at h
  all_goals simp_all

/-- The step of one event: one of the four commands, or the event's own row of Table T10. -/
theorem stepOn_cases (e : Event) (s : State) :
    (s.ctl = .idle ∧ e = .start ∧ stepOn e s = execReset s)
      ∨ (s.ctl = .reset ∧ e = .tick ∧ s.settleCnt = 1 ∧ stepOn e s = execIdentify s)
      ∨ (s.ctl = .identified ∧ e = .tick ∧ s.settleCnt = 1 ∧ stepOn e s = execRegister s)
      ∨ (s.ctl = .registered ∧ e = .step ∧ stepOn e s = execPoll s)
      ∨ (fetch s e = none ∧ stepOn e s = handle e s) := by
  cases hf : fetch s e with
  | none => exact .inr (.inr (.inr (.inr ⟨rfl, by simp [stepOn, hf]⟩)))
  | some word =>
    rcases fetch_eq_some hf with ⟨h1, h2, rfl⟩ | ⟨h1, h2, h3, rfl⟩ | ⟨h1, h2, h3, rfl⟩ | ⟨h1, h2, rfl⟩
    · exact .inl ⟨h1, h2, by rw [stepOn, hf]; rfl⟩
    · exact .inr (.inl ⟨h1, h2, h3, by rw [stepOn, hf]; rfl⟩)
    · exact .inr (.inr (.inl ⟨h1, h2, h3, by rw [stepOn, hf]; rfl⟩))
    · exact .inr (.inr (.inr (.inl ⟨h1, h2, by rw [stepOn, hf]; rfl⟩)))

/-- The step of an event that issues no command, when it answers a next state. -/
theorem handle_eq_next {e : Event} {s t : State} (h : handle e s = .next t) :
    s.admits e = true ∧
      match e with
      | .start => t = s
      | .reset => t = s.afterReset
      | .tick => t = onTick s
      | .writeAck n => t = onWriteAck n s
      | .writeErr => t = onWriteErr s
      | .rxByte b => onRxByte b s = .next t
      | .rxEmpty => t = onRxEmpty s
      | .rxErr => t = onRxErr s
      | .step => t = onStep s := by
  unfold handle at h
  split at h
  next ha =>
    refine ⟨ha, ?_⟩
    cases e <;> dsimp only at h ⊢ <;> first | exact h | (cases h; rfl)
  · cases h

/-- A `Tick` counts a running counter down or changes nothing (R47, R147, R174). -/
theorem onTick_cases (s : State) :
    (s.ctl.settling = true ∧ 1 < s.settleCnt ∧ onTick s = { s with settleCnt := s.settleCnt - 1 })
      ∨ (s.ctl.reading = true ∧ 0 < s.backoffCnt ∧ onTick s = { s with backoffCnt := s.backoffCnt - 1 })
      ∨ ((s.ctl.settling = true → s.settleCnt ≤ 1) ∧ (s.ctl.reading = true → s.backoffCnt = 0)
        ∧ onTick s = s) := by
  have hne : s.ctl.settling = true → s.ctl.reading = false := by cases s.ctl <;> decide
  unfold onTick
  cases h1 : s.ctl.settling <;> cases h2 : s.ctl.reading
  · simp
  · by_cases h3 : 0 < s.backoffCnt <;> simp [h3]
    omega
  · by_cases h3 : 1 < s.settleCnt <;> simp [h3]
    omega
  · simp_all

/-- A run of no step stays where it is. -/
@[simp] theorem run_zero (s : State) : core.run 0 s = .next s := rfl

/-- A run goes on from a step's next state. -/
theorem run_of_step_eq_next {k : Nat} {s t : State} (h : step s = .next t) : core.run (k + 1) s = core.run k t := by
  have h2 : core.step s = .next t := h
  simp only [Host.Core.run, h2]

/-- A run of one step and more has passed through the step's next state. -/
theorem exists_step_of_run_succ {k : Nat} {s t : State} (h : core.run (k + 1) s = .next t) :
    ∃ u, step s = .next u ∧ core.run k u = .next t := by
  simp only [Host.Core.run] at h
  split at h
  next u hs => exact ⟨u, hs, h⟩
  · cases h
  · cases h

end Sys2Proof.Machine
end

