-- ==== Sys2Proof/Tests/Slice0.lean ====
section
/-! SUPPORT. Tests on fixed values from spec/, and for every obligation with hypotheses a state that meets them. -/

namespace Sys2Proof.Tests

open Sys2Proof.Machine

/-! ### Well-formedness: each check refuses an ill-formed frame -/

theorem test_lengthOk_refuses_241_bytes :
    Frame.wellFormed { dest := 0, cmd := .register, payload := List.replicate 240 0xFF ++ [0x01] } = false := by
  decide +kernel

theorem test_lengthOk_takes_240_bytes :
    Frame.wellFormed { dest := 0, cmd := .register, payload := List.replicate 239 0xFF ++ [0x01] } = true := by
  decide +kernel

theorem test_destOk_refuses_poll_to_0 : Frame.wellFormed { dest := 0, cmd := .poll, payload := [] } = false := by
  decide

theorem test_destOk_refuses_reset_to_1 : Frame.wellFormed { dest := 1, cmd := .reset, payload := [] } = false := by
  decide

theorem test_payloadOk_refuses_reset_payload :
    Frame.wellFormed { dest := 0, cmd := .reset, payload := [0x01] } = false := by decide

theorem test_payloadOk_refuses_identify_payload :
    Frame.wellFormed { dest := 0, cmd := .identify, payload := [0x00] } = false := by decide

theorem test_payloadOk_refuses_empty_register :
    Frame.wellFormed { dest := 0, cmd := .register, payload := [] } = false := by decide

theorem test_payloadOk_refuses_register_address_2 :
    Frame.wellFormed { dest := 0, cmd := .register, payload := [0x41, 0x02] } = false := by decide

theorem test_payloadOk_refuses_poll_payload :
    Frame.wellFormed { dest := 1, cmd := .poll, payload := [0x01] } = false := by decide

/-! ### Decoding: words and frames written out from spec/30_encoding.md Tables T7 and T8 -/

theorem test_decode_reset : decode [0x30, 0x44] = .ok (.reset, []) := by decide

theorem test_decode_identify : decode [0x30, 0x40] = .ok (.identify, []) := by decide

theorem test_decode_register : decode [0x30, 0x41] = .ok (.register, []) := by decide

theorem test_decode_poll : decode [0x31, 0x42, 0x00] = .ok (.poll, [0x00]) := by decide

/-- A response's `0xBF` (R91) and the swapped bytes are no commands. -/
theorem test_decode_refuses_by_name :
    decode [0x30, 0xBF] = .error (.unknownCommand 0x30 0xBF)
      ∧ decode [0x44, 0x30] = .error (.unknownCommand 0x44 0x30) ∧ decode [0x30] = .error .truncated := by decide

theorem test_decodeTableWord :
    decodeTableWord 16 0x3044 = some .reset ∧ decodeTableWord 16 0x3142 = some .poll
      ∧ decodeTableWord 16 0x4430 = none ∧ decodeTableWord 8 0x30 = none := by decide

/-- V12 -/
theorem test_decodeFrame_reset :
    decodeFrame [0xA5, 0xA5, 0x01, 0x00, 0x30, 0x44, 0x00, 0xFE, 0x41, 0x0A, 0x0D] =
      .ok ({ dest := 0, cmd := .reset, payload := [] }, []) := by decide

/-- V13 -/
theorem test_decodeFrame_identify :
    decodeFrame [0xA5, 0xA5, 0x01, 0x00, 0x30, 0x40, 0x00, 0xFE, 0x45, 0x0A, 0x0D] =
      .ok ({ dest := 0, cmd := .identify, payload := [] }, []) := by decide

/-- V14 -/
theorem test_encodeFrame_register :
    encodeFrame { dest := 0, cmd := .register, payload := [0x41, 0x31, 0x32, 0x33, 0x34, 0x01] } =
      [0xA5, 0xA5, 0x01, 0x00, 0x30, 0x41, 0x06, 0x41, 0x31, 0x32, 0x33, 0x34, 0x01, 0xFD, 0x32, 0x0A, 0x0D] := by
  decide

/-- V15 -/
theorem test_encodeFrame_poll :
    encodeFrame { dest := 1, cmd := .poll, payload := [] } =
      [0xA5, 0xA5, 0x01, 0x01, 0x31, 0x42, 0x00, 0xFE, 0x41, 0x0A, 0x0D] := by decide

/-- V12 with one byte wrong: the checksum, the sync, the source, the terminator, a byte missing. -/
theorem test_decodeFrame_refuses_by_name :
    decodeFrame [0xA5, 0xA5, 0x01, 0x00, 0x30, 0x44, 0x00, 0x41, 0xFE, 0x0A, 0x0D] = .error .badChecksum
      ∧ decodeFrame [0xA5, 0x5A, 0x01, 0x00, 0x30, 0x44, 0x00, 0xFE, 0x41, 0x0A, 0x0D] = .error .badSync
      ∧ decodeFrame [0xA5, 0xA5, 0x00, 0x00, 0x30, 0x44, 0x00, 0xFE, 0x41, 0x0A, 0x0D] = .error .badSource
      ∧ decodeFrame [0xA5, 0xA5, 0x01, 0x00, 0x30, 0x44, 0x00, 0xFE, 0x41, 0x0D, 0x0A] = .error .badTerminator
      ∧ decodeFrame [0xA5, 0xA5, 0x01, 0x00, 0x30, 0x44, 0x00, 0xFE, 0x41, 0x0A] = .error .truncated := by decide

/-! ### CHECKSUM: V5, V7, V10, E1, V48 and V49 -/

theorem test_csum_vectors :
    csum [0xFF] = 0xFF01 ∧ csum [0x80, 0x80] = 0xFF00
      ∧ csum [0xA5, 0xA5, 0x01, 0x01, 0x31, 0x42, 0x00] = 0xFE41
      ∧ csum [0xA5, 0xA5, 0x01, 0x00, 0x30, 0x44, 0x00, 0xFE, 0x41] = 0xFD02 := by decide

theorem test_csum_wraps_at_258_bytes :
    csum (List.replicate 257 0xFF) = 0x0001 ∧ csum (List.replicate 258 0xFF) = 0xFF02 := by decide +kernel

/-! ### Single steps, from the vectors of spec/95_test_vectors.md -/

/-- A state with a given `ctl` and coming events, the rest as at reset. -/
def sample (c : Ctl) (events : List Event) : State := { State.reset with ctl := c, inputs := events }

/-- What a step answers, read through a view. -/
def seen {α : Type} (view : State → α) (s : State) : Option α :=
  match step s with
  | .next t => some (view t)
  | .fault _ => none
  | .refused _ => none

/-- An identify response that declares `n` serial bytes, at the end of the second settle delay. -/
def identifiedWith (n : Byte) (count : BitVec 9) : State :=
  { sample .identified [.tick] with rxBuf := [(6, n)], rxCount := count, settleCnt := 1 }

/-- V37 -/
theorem test_reset_builds_its_frame :
    seen (fun t => (t.txFrame, t.status)) (sample .idle [.start]) =
      some ([0xA5, 0xA5, 0x01, 0x00, 0x30, 0x44, 0x00, 0xFE, 0x41, 0x0A, 0x0D], 0x00000011#32) := by decide

/-- V41 -/
theorem test_identify_builds_its_frame :
    seen (fun t => (t.txFrame, t.status)) { sample .reset [.tick] with settleCnt := 1 } =
      some ([0xA5, 0xA5, 0x01, 0x00, 0x30, 0x40, 0x00, 0xFE, 0x45, 0x0A, 0x0D], 0x00000013#32) := by decide

/-- V57: the range check passes at its edge. -/
theorem test_register_builds_its_frame :
    seen (fun t => (t.txFrame, t.status)) (identifiedWith 0x00 7) =
      some ([0xA5, 0xA5, 0x01, 0x00, 0x30, 0x41, 0x01, 0x01, 0xFE, 0x42, 0x0A, 0x0D], 0x00070016#32) := by decide

/-- V55 -/
theorem test_register_serial_out_of_range :
    seen (fun t => (t.failReason, t.failState, t.failCode)) (identifiedWith 0x14 11) =
      some (.serialOutOfRange, .identified, 2) := by decide

/-- V58 -/
theorem test_poll_builds_its_frame :
    seen (fun t => (t.txFrame, t.status)) { sample .registered [.step] with rxCount := 11, rxTerm := true } =
      some ([0xA5, 0xA5, 0x01, 0x01, 0x31, 0x42, 0x00, 0xFE, 0x41, 0x0A, 0x0D], 0x000B8019#32) := by decide

/-- V43 -/
theorem test_short_write_fails :
    seen State.status { sample .rstTx [.writeAck 5] with txLen := 11 } = some 0x000009AD#32 := by decide

/-- V53 -/
theorem test_short_telemetry_fails :
    seen State.status { sample .polled [.step] with rxCount := 20, rxTerm := true } = some 0x0014DBED#32 := by decide

/-- V25, its last byte: the pair ends the read of a short response. -/
theorem test_terminator_ends_the_read :
    seen (fun t => (t.ctl, t.rxTerm, t.trace))
        { sample .idRx [.rxByte 0x0D] with rxBuf := [(0, 0x0A), (1, 0x0A)], rxCount := 2 } =
      some (.failed, true, [.rx [0x0A, 0x0A, 0x0D]]) := by decide

/-- V1, its first and fifth words. -/
theorem test_telemetry_words :
    (State.teleWord { State.reset with rxBuf := [(7, 0x01), (8, 0x74), (15, 0x09), (16, 0x7D)] } 0,
      State.teleWord { State.reset with rxBuf := [(7, 0x01), (8, 0x74), (15, 0x09), (16, 0x7D)] } 4) =
      (0x0174, 0x097D) := by decide

/-- What the host asks: each table word runs as the next step. -/
theorem test_withFetchWord_runs_the_word :
    (seen State.ctl (State.reset.withFetchWord 16 0x3044), seen State.ctl (State.reset.withFetchWord 16 0x3040),
      seen State.ctl (State.reset.withFetchWord 16 0x3041), seen State.ctl (State.reset.withFetchWord 16 0x3142)) =
      (some .rstTx, some .idTx, some .regTx, some .pollTx) := by decide

/-! ### Witnesses: for each obligation with hypotheses, a state and operands that meet them, clause by clause -/

/-- Legal but for the clauses on `ctl` that a concrete state settles by evaluation. -/
theorem test_legal_idle : (sample .idle [.start]).Legal := by constructor <;> decide

/-- The first settle delay at its last tick. -/
def settling : State := { sample .reset [.tick] with settleCnt := 1 }

theorem test_legal_settling : settling.Legal := by constructor <;> decide

/-- The reset frame's write outstanding. -/
def writing (e : Event) : State :=
  { sample .rstTx [e] with
    txBuf := Memory.writeBytes [] 0 [0xA5, 0xA5, 0x01, 0x00, 0x30, 0x44, 0x00, 0xFE, 0x41, 0x0A, 0x0D]
    txLen := 11
    trace := [.tx [0xA5, 0xA5, 0x01, 0x00, 0x30, 0x44, 0x00, 0xFE, 0x41, 0x0A, 0x0D]] }

theorem test_legal_writing : (writing .writeErr).Legal := by constructor <;> decide

/-- The poll's read with its first terminator byte received. -/
def readingPoll : State :=
  { sample .pollRx [.rxByte 0x0D] with destAddr := 1, rxBuf := [(0, 0x0A)], rxCount := 1, emptyCnt := 2 }

theorem test_legal_readingPoll : readingPoll.Legal := by constructor <;> decide

/-- A session's end with 27 bytes received. -/
def succeeded : State :=
  { sample .success [.tick] with
    destAddr := 1, rxBuf := Memory.writeBytes [] 0 (List.replicate 27 0x00), rxCount := 27 }

theorem test_legal_succeeded : succeeded.Legal := by constructor <;> decide

/-- A session that a write error ended. -/
def failedWrite : State :=
  { sample .failed [.start] with failReason := .writeError, failCode := 2, failState := .rstTx }

theorem test_legal_failedWrite : failedWrite.Legal := by constructor <;> decide

/-- ResetEventResetsFromAnyState -/
theorem test_witness_reset_event : (sample .polled [.reset, .tick]).inputs = .reset :: [.tick] := rfl

/-- StatusAndLinkOwnAfterReset -/
theorem test_witness_at_reset : State.AtReset { sample .idle [.tick] with epoch := 1 } := by
  constructor <;> first | decide | exact fun _ => rfl

/-- DecodeMatchesTheFullOpcode, both sides -/
theorem test_witness_full_opcode :
    decode [0x31, 0x42] = .ok (.poll, []) ∧ (0x31#8).toNat * 256 + (0x42#8).toNat = 0x3142 := by decide

/-- FrameDecodeOfEncode and FrameEncodeOfDecode: V16 with a byte after it -/
theorem test_witness_frame_round_trips :
    Frame.wellFormed
        { dest := 0, cmd := .register, payload := [0x31, 0x32, 0x33, 0x34, 0x35, 0x36, 0x37, 0x38, 0x39, 0x30, 0x01] } =
      true
    ∧ decodeFrame [0xA5, 0xA5, 0x01, 0x00, 0x30, 0x41, 0x0B, 0x31, 0x32, 0x33, 0x34, 0x35, 0x36, 0x37, 0x38, 0x39,
        0x30, 0x01, 0xFC, 0x2B, 0x0A, 0x0D, 0x55] =
      .ok ({ dest := 0, cmd := .register,
             payload := [0x31, 0x32, 0x33, 0x34, 0x35, 0x36, 0x37, 0x38, 0x39, 0x30, 0x01] }, [0x55]) := by decide

/-- ChecksumCornerCases: the byte sum of 258 times FF, the sum 0, a permutation -/
theorem test_witness_checksum_corners :
    65536 ≤ ((List.replicate 258 (0xFF : Byte)).map BitVec.toNat).sum
      ∧ csum [0x00] = 0x0000 ∧ (([0x00] : List Byte).map BitVec.toNat).sum % 65536 = 0
      ∧ ([0x01, 0x02] : List Byte).Perm [0x02, 0x01] :=
  ⟨by decide +kernel, by decide, by decide, List.Perm.swap _ _ _⟩

/-- ChecksumWordCancelsTheByteSum -/
theorem test_witness_request_built : ∃ t, buildRequest 0x30 0x44 [] State.reset = (.ok, t) := ⟨_, rfl⟩

/-- BuildRequestWritesTheFrame and OversizedPayloadIsNeverSent: the longest payload and one byte more -/
theorem test_witness_payload_lengths :
    (List.replicate 240 (0xFF : Byte)).length ≤ 240 ∧ 240 < (List.replicate 241 (0xFF : Byte)).length := by
  simp only [List.length_replicate]
  decide

/-- BuildRequestWritesTheFrame, its identify clause -/
theorem test_witness_identify_request : State.reset.destAddr = 0 := rfl

/-- OversizedPayloadIsNeverSent, its second clause -/
theorem test_witness_register_too_large :
    ∃ t, exec .register (identifiedWith 0xF0 247) = .next t ∧ t.failReason = .payloadTooLarge :=
  ⟨_, rfl, by decide +kernel⟩

/-- HandshakeRowsSendTheirFrames (its first row) and StartActsInIdleOnly -/
theorem test_witness_reset_command :
    (sample .idle [.start]).Legal ∧ (sample .idle [.start]).ctl = .idle
      ∧ (sample .idle [.start]).inputs = .start :: [] := ⟨test_legal_idle, rfl, rfl⟩

/-- HandshakeRowsSendTheirFrames (its second row) and SettleTickCountsDown -/
theorem test_witness_identify_command :
    settling.Legal ∧ settling.ctl = .reset ∧ settling.ctl.settling = true ∧ settling.settleCnt = 1
      ∧ settling.inputs = .tick :: [] := ⟨test_legal_settling, rfl, rfl, rfl, rfl⟩

/-- RegisterCommandBuildsItsFrame and SecondSettleEndRegistersOrFails, at both ends of its range: no serial byte, and 239 of them -/
theorem test_witness_register_command :
    (7 + ((identifiedWith 0 7).rxByte 6).toNat ≤ (identifiedWith 0 7).rxCount.toNat
        ∧ ((identifiedWith 0 7).rxByte 6).toNat ≤ 239)
      ∧ 7 + ((identifiedWith 239 246).rxByte 6).toNat ≤ (identifiedWith 239 246).rxCount.toNat
        ∧ ((identifiedWith 239 246).rxByte 6).toNat ≤ 239 := by decide

/-- SecondSettleEndRegistersOrFails, its legal state: an identify response of seven zero bytes -/
theorem test_witness_legal_identified :
    State.Legal { identifiedWith 0 7 with rxBuf := Memory.writeBytes [] 0 [0, 0, 0, 0, 0, 0, 0] }
      ∧ (identifiedWith 0 7).ctl = .identified ∧ (identifiedWith 0 7).settleCnt = 1
      ∧ (identifiedWith 0 7).inputs = .tick :: [] :=
  ⟨by constructor <;> decide, rfl, rfl, rfl⟩

/-- RegisterFailsOnMissingSerialBytes and SecondSettleEndRegistersOrFails, one byte short -/
theorem test_witness_register_missing_bytes :
    (identifiedWith 5 11).rxCount.toNat < 7 + ((identifiedWith 5 11).rxByte 6).toNat
      ∧ (identifiedWith 5 11).ctl = .identified ∧ (identifiedWith 5 11).settleCnt = 1
      ∧ (identifiedWith 5 11).inputs = .tick :: [] := by decide

/-- RegisterFailsOnOversizedSerial, at 240 serial bytes -/
theorem test_witness_register_oversized :
    7 + ((identifiedWith 240 247).rxByte 6).toNat ≤ (identifiedWith 240 247).rxCount.toNat
      ∧ 240 ≤ ((identifiedWith 240 247).rxByte 6).toNat
      ∧ (identifiedWith 240 247).ctl = .identified ∧ (identifiedWith 240 247).settleCnt = 1
      ∧ (identifiedWith 240 247).inputs = .tick :: [] := by decide

/-- PollCommandBuildsItsFrame -/
theorem test_witness_poll_command :
    (sample .registered [.step]).ctl = .registered ∧ (sample .registered [.step]).inputs = .step :: [] := ⟨rfl, rfl⟩

/-- BuiltFramesDecodeToTheirCommand -/
theorem test_witness_frame_built :
    ∃ t, (identifiedWith 0 7).destAddr = 0x00 ∧ exec .register (identifiedWith 0 7) = .next t ∧ t.ctl ≠ .failed :=
  ⟨_, rfl, rfl, by decide⟩

/-- StepRunsTheDecodedCommand and EachRowIssuesItsCommand -/
theorem test_witness_command_fetched :
    (sample .registered [.step]).inputs = .step :: []
      ∧ fetch ((sample .registered [.step]).withInputs []) .step = some [0x31, 0x42]
      ∧ decode [0x31, 0x42] = .ok (.poll, []) := by decide

/-- OnlyInadmissibleEventsAreRefused: one refused, one not -/
theorem test_witness_inadmissible_event :
    step (sample .idle [.step]) = .refused (.inadmissible .step)
      ∧ ∃ t, step (sample .polled [.step]) = .next t := ⟨rfl, _, rfl⟩

/-- LegalStatesStepOnAdmittedEvents, with an event and with none -/
theorem test_witness_legal_states_step :
    readingPoll.Legal ∧ readingPoll.inputs = .rxByte 0x0D :: [] ∧ readingPoll.admits (.rxByte 0x0D) = true
      ∧ (sample .idle []).Legal ∧ (sample .idle []).inputs = [] ∧ (sample .idle []).epoch = 0 :=
  ⟨test_legal_readingPoll, rfl, by decide, by constructor <;> decide, rfl, rfl⟩

/-- StartActsInIdleOnly, outside `IDLE` -/
theorem test_witness_start_elsewhere :
    failedWrite.inputs = .start :: [] ∧ failedWrite.ctl ≠ .idle := by decide

/-- TickCountsOrChangesNothing, both clauses -/
theorem test_witness_tick :
    (sample .regTx [.tick]).inputs = .tick :: [] ∧ (sample .regTx [.tick]).ctl.writing = true
      ∧ ¬((sample .regTx [.tick]).ctl.settling = true ∧ (sample .regTx [.tick]).settleCnt = 1) := by decide

/-- AcknowledgedResetStartsTheSettleDelay -/
theorem test_witness_reset_acknowledged :
    (writing (.writeAck 11)).ctl = .rstTx ∧ (writing (.writeAck 11)).inputs = .writeAck 11 :: []
      ∧ 11 = (writing (.writeAck 11)).txLen.toNat := by decide

/-- AcknowledgedRequestStartsTheRead, one state for each of its three clauses -/
theorem test_witness_request_acknowledged :
    (sample .idTx [.writeAck 0]).inputs = .writeAck 0 :: [] ∧ 0 = (sample .idTx [.writeAck 0]).txLen.toNat
      ∧ (sample .idTx [.writeAck 0]).ctl = .idTx ∧ (sample .regTx [.writeAck 0]).ctl = .regTx
      ∧ (sample .pollTx [.writeAck 0]).ctl = .pollTx := by decide

/-- FailedWriteRaisesWriteError, by error and by count -/
theorem test_witness_write_failed :
    (writing .writeErr).ctl.writing = true ∧ (writing .writeErr).inputs = .writeErr :: []
      ∧ (writing (.writeAck 10)).inputs = .writeAck 10 :: [] ∧ 10 ≠ (writing (.writeAck 10)).txLen.toNat := by decide

/-- SettleTickCountsDown, with two ticks left -/
theorem test_witness_settle_counts_down :
    State.ctl { sample .identified [.tick] with settleCnt := 2 } = .identified
      ∧ 1 < State.settleCnt { sample .identified [.tick] with settleCnt := 2 } := by decide

/-- SettleDelayLastsItsTicks: a delay of two ticks, and the conforming parameters of a whole one -/
theorem test_witness_settle_delay :
    State.settleCnt { sample .reset [.tick, .tick] with settleCnt := 2 } = 1 + 1
      ∧ State.inputs { sample .reset [.tick, .tick] with settleCnt := 2 } = List.replicate (1 + 1) .tick ++ []
      ∧ Config.vectorParams.Conforming
      ∧ State.inputs (sample .rstTx (.writeAck 0 :: (List.replicate 101 .tick ++ []))) =
        .writeAck (sample .rstTx []).txLen.toNat :: (List.replicate Config.vectorParams.settleTicks .tick ++ []) :=
  ⟨rfl, rfl, by decide, rfl⟩

/-- ReceivedByteIsStoredAndTested: the pair at its earliest place, the cap, and a byte that ends nothing -/
theorem test_witness_byte_received :
    (readingPoll.ctl.reading = true ∧ readingPoll.backoffCnt = 0 ∧ readingPoll.rxCount.toNat < 256
        ∧ 1 ≤ readingPoll.rxCount.toNat ∧ readingPoll.rxByte (readingPoll.rxCount.toNat - 1) = 0x0A)
      ∧ State.rxCount { sample .idRx [.rxByte 0] with rxBuf := [(254, 0)], rxCount := 255 } + 1 = 256
      ∧ (sample .regRx [.rxByte 0x0D]).ctl.reading = true ∧ ¬(1 ≤ (sample .regRx [.rxByte 0x0D]).rxCount.toNat) := by
  decide

/-- CompletedReadIsCheckedByItsCount, at the two counts that meet -/
theorem test_witness_read_completed :
    (7 ≤ (State.rxCount { sample .idRx [] with rxCount := 7 }).toNat
        ∧ (State.rxCount { sample .idRx [] with rxCount := 6 }).toNat < 7)
      ∧ (7 ≤ (State.rxCount { sample .regRx [] with rxCount := 7 }).toNat
        ∧ (State.rxCount { sample .regRx [] with rxCount := 6 }).toNat < 7)
      ∧ 7 ≤ (State.rxCount { sample .pollRx [] with rxCount := 7 }).toNat
        ∧ (State.rxCount { sample .pollRx [] with rxCount := 6 }).toNat < 7 := by decide

/-- EmptyPollBacksOffOrGivesUp: the last poll before the budget, and the one that reaches it -/
theorem test_witness_empty_poll :
    State.emptyCnt { sample .idRx [.rxEmpty] with emptyCnt := 1 } + 1 < Config.vectorParams.retryBudget
      ∧ Config.vectorParams.retryBudget ≤ State.emptyCnt { sample .idRx [.rxEmpty] with emptyCnt := 2 } + 1
      ∧ (sample .idRx [.rxEmpty]).ctl.reading = true ∧ (sample .idRx [.rxEmpty]).backoffCnt = 0
      ∧ (sample .idRx [.rxEmpty]).inputs = .rxEmpty :: [] ∧ 1 ≤ (sample .idRx []).params.backoffTicks := by decide

/-- BackoffTickCountsDown: two ticks left, one left, none running -/
theorem test_witness_backoff_tick :
    State.ctl { sample .regRx [.tick] with backoffCnt := 2 } = .regRx
      ∧ 1 < State.backoffCnt { sample .regRx [.tick] with backoffCnt := 2 }
      ∧ State.backoffCnt { sample .regRx [.tick] with backoffCnt := 1 } = 1
      ∧ (sample .regRx [.tick]).backoffCnt = 0 ∧ (sample .regRx [.tick]).ctl.reading = true := by decide

/-- ReadErrorAbortsTheRead -/
theorem test_witness_read_error :
    (sample .pollRx [.rxErr]).ctl.reading = true ∧ (sample .pollRx [.rxErr]).backoffCnt = 0
      ∧ (sample .pollRx [.rxErr]).inputs = .rxErr :: [] := by decide

/-- The shortest stream that ends in its first pair (E3). -/
theorem test_shortest_stream : EndsAtFirstPair [0x0A, 0x0D] :=
  ⟨⟨[], rfl⟩, fun j h => absurd h (by simp), by decide⟩

/-- ReadEndsAtTheFirstTerminator: with an empty poll between the two bytes, and without -/
theorem test_witness_stream_received :
    (∃ t, (sample .idRx [.rxByte 0x0A, .rxEmpty, .tick, .tick, .rxByte 0x0D]).ctl.reading = true
        ∧ EndsAtFirstPair (receivedBytes [.rxByte 0x0A, .rxEmpty, .tick, .tick, .rxByte 0x0D])
        ∧ BudgetKept Config.vectorParams 0 [.rxByte 0x0A, .rxEmpty, .tick, .tick, .rxByte 0x0D]
        ∧ core.run 5 (sample .idRx [.rxByte 0x0A, .rxEmpty, .tick, .tick, .rxByte 0x0D]) = .next t)
      ∧ (sample .idRx [.rxByte 0x0A, .rxByte 0x0D]).inputs = ([0x0A, 0x0D] : List Byte).map .rxByte ++ []
      ∧ (sample .idRx []).rxCount = 0 ∧ (sample .idRx []).backoffCnt = 0 ∧ (sample .idRx []).rxTerm = false :=
  ⟨⟨_, rfl, test_shortest_stream, ⟨by decide, trivial⟩, rfl⟩, rfl, rfl, rfl, rfl⟩

/-- PolledStepChecksTheTelemetryLength, at the two counts that meet -/
theorem test_witness_polled_step :
    (sample .polled [.step]).ctl = .polled ∧ (sample .polled [.step]).inputs = .step :: []
      ∧ 27 ≤ (State.rxCount { sample .polled [.step] with rxCount := 27 }).toNat
      ∧ (State.rxCount { sample .polled [.step] with rxCount := 26 }).toNat < 27 := by decide

/-- TerminalStatesAreLeftByResetOnly: nothing changes, and an answer is refused -/
theorem test_witness_terminal_states :
    succeeded.ctl = .success ∧ succeeded.inputs = .tick :: [] ∧ failedWrite.ctl = .failed
      ∧ failedWrite.inputs = .start :: [] ∧ (sample .failed [.rxErr]).inputs = .rxErr :: [] := by decide

/-- TelemetryWordsAreBigEndianViews, DerivedFlagsFollowCtl -/
theorem test_witness_terminal_legal :
    succeeded.Legal ∧ succeeded.ctl = .success ∧ failedWrite.Legal ∧ failedWrite.ctl = .failed :=
  ⟨test_legal_succeeded, rfl, test_legal_failedWrite, rfl⟩

/-- StatusPacksTableT6: two states that show the same registers and differ elsewhere -/
theorem test_witness_status_shown :
    settling.ctl = (sample .reset []).ctl ∧ settling.failCode = (sample .reset []).failCode
      ∧ settling.failReason = (sample .reset []).failReason ∧ settling.failState = (sample .reset []).failState
      ∧ settling.rxTerm = (sample .reset []).rxTerm ∧ settling.rxCount = (sample .reset []).rxCount
      ∧ settling ≠ sample .reset [] := by decide

/-- FailingStepRecordsItsState, FailuresAreThoseOfTableT12 and EveryStepKeepsTheStateLegal -/
theorem test_witness_failing_step :
    ∃ t, (writing .writeErr).Legal ∧ step (writing .writeErr) = .next t ∧ (writing .writeErr).ctl ≠ .failed
      ∧ t.ctl = .failed ∧ (writing .writeErr).inputs = .writeErr :: [] ∧ (∀ b, Event.writeErr ≠ .rxByte b)
      ∧ (.rstTx, .writeError, 2) ∈ failureTable :=
  ⟨_, test_legal_writing, rfl, by decide, by decide, rfl, by simp, by decide⟩

/-- EveryStepKeepsTheResponseDelimited, at the step that completes the pair -/
theorem test_witness_delimited : readingPoll.Delimited ∧ ∃ t, step readingPoll = .next t :=
  ⟨⟨by decide, by decide, fun i h => absurd h (Nat.not_lt.mpr (Nat.le_add_left 1 i))⟩, _, rfl⟩

/-- EveryStepKeepsTheSessionInOrder -/
theorem test_witness_in_session :
    (writing .writeErr).Legal ∧ (writing .writeErr).InSession ∧ ∃ t, step (writing .writeErr) = .next t :=
  ⟨test_legal_writing, ⟨[], [], [], by decide, by decide, by decide, by decide, by decide⟩, _, rfl⟩

/-- EveryFrameSentIsACommand -/
theorem test_witness_frame_sent :
    ∃ t, settling.Legal ∧ step settling = .next t
      ∧ t.trace = settling.trace ++ [.tx [0xA5, 0xA5, 0x01, 0x00, 0x30, 0x40, 0x00, 0xFE, 0x45, 0x0A, 0x0D]] :=
  ⟨_, test_legal_settling, rfl, by decide⟩

/-- EveryRunFollowsTheSession: the shortest whole session, every count at 1 and every read ended by an empty poll; its
last state is in `SUCCESS`. -/
theorem test_witness_run_to_success :
    Config.Params.Runs { Config.vectorParams with settleTicks := 1, backoffTicks := 1, retryBudget := 1 }
      ∧ (match core.run 53
            { State.reset with
              params := { Config.vectorParams with settleTicks := 1, backoffTicks := 1, retryBudget := 1 }
              inputs := [.start, .writeAck 11, .tick, .writeAck 11] ++ List.replicate 7 (.rxByte 0)
                ++ [.rxEmpty, .tick, .writeAck 12] ++ List.replicate 7 (.rxByte 0)
                ++ [.rxEmpty, .step, .writeAck 11] ++ List.replicate 27 (.rxByte 0) ++ [.rxEmpty, .step] } with
          | .next s => some s.ctl
          | .fault _ => none
          | .refused _ => none) = some .success := by
  decide +kernel

/-- OnlyPollWritesTheDestination: by `Reset`, by POLL; and each of its legal states -/
theorem test_witness_destination_written :
    (∃ t, step (sample .registered [.step]) = .next t ∧ t.destAddr ≠ (sample .registered [.step]).destAddr)
      ∧ (∃ t, step (succeeded.withInputs [.reset]) = .next t ∧ t.destAddr ≠ succeeded.destAddr)
      ∧ (writing .writeErr).Legal ∧ (writing .writeErr).ctl = .rstTx
      ∧ State.Legal { sample .pollTx [] with destAddr := 1 } :=
  ⟨⟨_, rfl, by decide⟩, ⟨_, rfl, by decide⟩, test_legal_writing, rfl, by constructor <;> decide⟩

/-- BuffersAreWrittenByTheirOwnersOnly: a byte of each buffer that a step changes -/
theorem test_witness_buffers_written :
    (∃ t, step { sample .idRx [.rxByte 1] with rxBuf := [(0, 2)] } = .next t ∧ t.rxByte 0 ≠ 2)
      ∧ (∃ t, step { sample .idle [.start] with txBuf := [(0, 2)] } = .next t ∧ t.txByte 0 ≠ 2)
      ∧ State.rxByte { sample .idRx [.rxByte 1] with rxBuf := [(0, 2)] } 0 = 2
      ∧ State.txByte { sample .idle [.start] with txBuf := [(0, 2)] } 0 = 2 :=
  ⟨⟨_, rfl, by decide⟩, ⟨_, rfl, by decide⟩, by decide, by decide⟩

/-- NoStepChangesTheParameters, SourceStatesFollowTheirOrder, TraceNeverAffectsTheStep (its three outcomes) -/
theorem test_witness_outcomes :
    (∃ t, step settling = .next t ∧ settling.inputs = .tick :: [] ∧ Event.tick ≠ .reset)
      ∧ step { sample .idRx [.rxByte 0] with rxCount := 256 } = .fault (.bufferIndex 256)
      ∧ step (sample .idle [.writeAck 0]) = .refused (.inadmissible (.writeAck 0)) :=
  ⟨⟨_, rfl, rfl, by decide⟩, rfl, rfl⟩

/-- EveryProgressingEventNearsTheEnd: an event that moves the session on, one that does not, and a session to go on -/
theorem test_witness_progress :
    settling.Legal ∧ settling.progresses .tick = true ∧ failedWrite.Legal ∧ failedWrite.progresses .start = false
      ∧ Event.start ≠ .reset ∧ settling.ctl ≠ .success ∧ settling.ctl ≠ .failed
      ∧ (∃ t, step settling = .next t) ∧ ∃ t, step failedWrite = .next t :=
  ⟨test_legal_settling, by decide, test_legal_failedWrite, by decide, by decide, by decide, by decide, ⟨_, rfl⟩, _, rfl⟩

/-- StaleBytesAreNeverRead: the same read with a stale byte behind it and without -/
theorem test_witness_stale_byte :
    State.Alike (sample .idRx [.rxByte 1]) { sample .idRx [.rxByte 1] with rxBuf := [(9, 7)], epoch := 4 } :=
  ⟨rfl, rfl, rfl⟩

end Sys2Proof.Tests
end

section
/-! The facts the statements about the state rest on: what a command's write and the end of a read leave unchanged,
and the rows of Table T10, one constructor per row, tied to the machine by what `stepOn` answers. -/

namespace Sys2Proof.Machine

/-! ### The classes of `ctl` (Table T3) -/

theorem Ctl.settling_iff (c : Ctl) : c.settling = true ↔ c = .reset ∨ c = .identified := by
  cases c <;> simp [Ctl.settling]

theorem Ctl.reading_iff (c : Ctl) : c.reading = true ↔ c = .idRx ∨ c = .regRx ∨ c = .pollRx := by
  cases c <;> simp [Ctl.reading]

/-! ### Issuing a write -/

/-- A write issued or refused leaves everything but the failure record, the frame and the trace. -/
theorem State.issue_frame (s : State) (control function : Byte) (payload : List Byte) (next : Ctl) :
    ∃ ctl txBuf txLen trace failCode failReason failState,
      s.issue control function payload next = { s with
        ctl := ctl, txBuf := txBuf, txLen := txLen, trace := trace
        failCode := failCode, failReason := failReason, failState := failState } := by
  rcases Nat.lt_or_ge 240 payload.length with h | h
  · exact ⟨_, _, _, _, _, _, _, State.issue_refused h⟩
  · exact ⟨_, _, _, _, _, _, _, State.issue_ok h⟩

section
variable (s : State) (control function : Byte) (payload : List Byte) (next : Ctl)

@[simp] theorem State.issue_destAddr : (s.issue control function payload next).destAddr = s.destAddr := by
  obtain ⟨_, _, _, _, _, _, _, h⟩ := s.issue_frame control function payload next
  rw [h]

@[simp] theorem State.issue_rxBuf : (s.issue control function payload next).rxBuf = s.rxBuf := by
  obtain ⟨_, _, _, _, _, _, _, h⟩ := s.issue_frame control function payload next
  rw [h]

@[simp] theorem State.issue_rxCount : (s.issue control function payload next).rxCount = s.rxCount := by
  obtain ⟨_, _, _, _, _, _, _, h⟩ := s.issue_frame control function payload next
  rw [h]

@[simp] theorem State.issue_rxTerm : (s.issue control function payload next).rxTerm = s.rxTerm := by
  obtain ⟨_, _, _, _, _, _, _, h⟩ := s.issue_frame control function payload next
  rw [h]

@[simp] theorem State.issue_params : (s.issue control function payload next).params = s.params := by
  obtain ⟨_, _, _, _, _, _, _, h⟩ := s.issue_frame control function payload next
  rw [h]

@[simp] theorem State.issue_inputs : (s.issue control function payload next).inputs = s.inputs := by
  obtain ⟨_, _, _, _, _, _, _, h⟩ := s.issue_frame control function payload next
  rw [h]

@[simp] theorem State.issue_epoch : (s.issue control function payload next).epoch = s.epoch := by
  obtain ⟨_, _, _, _, _, _, _, h⟩ := s.issue_frame control function payload next
  rw [h]

/-- A command with no operand is never refused its write. -/
@[simp] theorem State.issue_nil_ctl : (s.issue control function [] next).ctl = next := by
  rw [State.issue_ok (by simp)]

theorem State.issue_ctl_cases :
    (s.issue control function payload next).ctl = next ∨ (s.issue control function payload next).ctl = .failed := by
  rcases Nat.lt_or_ge 240 payload.length with h | h
  · exact .inr (by rw [State.issue_refused h, State.raiseFailure_ctl])
  · exact .inl (by rw [State.issue_ok h])

end

/-! ### The end of a read -/

/-- A response with its header is accepted. -/
theorem State.readDone_of_header {s : State} (h : 7 ≤ s.rxCount.toNat) :
    s.readDone = (s.emit (.rx s.lastResponse)).acceptResponse :=
  if_pos h

/-- A response shorter than its header fails the session (R222). -/
theorem State.readDone_of_short {s : State} (h : s.rxCount.toNat < 7) :
    s.readDone = (s.emit (.rx s.lastResponse)).raiseFailure .shortResponse :=
  if_neg (Nat.not_le.mpr h)

theorem State.acceptResponse_frame (s : State) :
    ∃ ctl settleCnt, s.acceptResponse = { s with ctl := ctl, settleCnt := settleCnt } := by
  cases hc : s.ctl <;> simp only [State.acceptResponse, hc] <;> exact ⟨_, _, rfl⟩

/-- The end of a read leaves everything but `ctl`, the settle delay it starts, the failure record and the trace. -/
theorem State.readDone_frame (s : State) :
    ∃ ctl settleCnt trace failCode failReason failState,
      s.readDone = { s with
        ctl := ctl, settleCnt := settleCnt, trace := trace
        failCode := failCode, failReason := failReason, failState := failState } := by
  rcases s.readDone_cases with ⟨-, h⟩ | ⟨-, h⟩ <;> rw [h]
  · obtain ⟨_, _, ha⟩ := (s.emit (.rx s.lastResponse)).acceptResponse_frame
    exact ⟨_, _, _, _, _, _, ha⟩
  · exact ⟨_, _, _, _, _, _, rfl⟩

section
variable (s : State)

@[simp] theorem State.readDone_destAddr : s.readDone.destAddr = s.destAddr := by
  obtain ⟨_, _, _, _, _, _, h⟩ := s.readDone_frame
  rw [h]

@[simp] theorem State.readDone_rxBuf : s.readDone.rxBuf = s.rxBuf := by
  obtain ⟨_, _, _, _, _, _, h⟩ := s.readDone_frame
  rw [h]

@[simp] theorem State.readDone_rxCount : s.readDone.rxCount = s.rxCount := by
  obtain ⟨_, _, _, _, _, _, h⟩ := s.readDone_frame
  rw [h]

@[simp] theorem State.readDone_rxTerm : s.readDone.rxTerm = s.rxTerm := by
  obtain ⟨_, _, _, _, _, _, h⟩ := s.readDone_frame
  rw [h]

@[simp] theorem State.readDone_params : s.readDone.params = s.params := by
  obtain ⟨_, _, _, _, _, _, h⟩ := s.readDone_frame
  rw [h]

@[simp] theorem State.readDone_inputs : s.readDone.inputs = s.inputs := by
  obtain ⟨_, _, _, _, _, _, h⟩ := s.readDone_frame
  rw [h]

@[simp] theorem State.readDone_epoch : s.readDone.epoch = s.epoch := by
  obtain ⟨_, _, _, _, _, _, h⟩ := s.readDone_frame
  rw [h]

end

/-- Where a completed read leads (Table T10, R181..R201). -/
theorem State.readDone_ctl_cases {s : State} (h : s.ctl.reading = true) :
    s.readDone.ctl = .failed ∨ (s.ctl = .idRx ∧ s.readDone.ctl = .identified)
      ∨ (s.ctl = .regRx ∧ s.readDone.ctl = .registered) ∨ (s.ctl = .pollRx ∧ s.readDone.ctl = .polled) := by
  rcases s.readDone_cases with ⟨-, hd⟩ | ⟨-, hd⟩ <;> rw [hd]
  · cases hc : s.ctl <;> simp [hc, Ctl.reading] at h <;> simp [State.acceptResponse, hc]
  · exact .inl rfl

theorem State.readDone_not_reading {s : State} (h : s.ctl.reading = true) : s.readDone.ctl.reading = false := by
  rcases State.readDone_ctl_cases h with hc | ⟨-, hc⟩ | ⟨-, hc⟩ | ⟨-, hc⟩ <;> rw [hc] <;> rfl

/-! ### The state with one more byte received -/

/-- The state once a received byte is stored and counted, before the terminator test (R144). -/
def State.takeByte (s : State) (b : Byte) : State :=
  { s.storeByte b with emptyCnt := if s.params.emptyResetOnByte then 0 else s.emptyCnt }

@[simp] theorem State.takeByte_ctl (s : State) (b : Byte) : (s.takeByte b).ctl = s.ctl := rfl
@[simp] theorem State.takeByte_destAddr (s : State) (b : Byte) : (s.takeByte b).destAddr = s.destAddr := rfl
@[simp] theorem State.takeByte_rxTerm (s : State) (b : Byte) : (s.takeByte b).rxTerm = s.rxTerm := rfl
@[simp] theorem State.takeByte_params (s : State) (b : Byte) : (s.takeByte b).params = s.params := rfl
@[simp] theorem State.takeByte_inputs (s : State) (b : Byte) : (s.takeByte b).inputs = s.inputs := rfl

theorem State.takeByte_rxByte (s : State) (b : Byte) (i : Nat) :
    (s.takeByte b).rxByte i = if s.rxCount.toNat = i then b else s.rxByte i :=
  s.storeByte_rxByte b i

theorem State.takeByte_rxCount_toNat (s : State) (b : Byte) (h : s.rxCount.toNat < 256) :
    (s.takeByte b).rxCount.toNat = s.rxCount.toNat + 1 :=
  s.storeByte_rxCount_toNat b h

theorem State.takeByte_lastResponse (s : State) (b : Byte) (h : s.rxCount.toNat < 256) :
    (s.takeByte b).lastResponse = s.lastResponse ++ [b] :=
  s.storeByte_lastResponse b h

/-! ### The rows of Table T10 -/

/-- Table T10: the event takes the state to a next one by one of its rows. -/
inductive State.Row (s : State) : Event → State → Prop
  /-- R171 -/
  | sendReset : s.ctl = .idle → Row s .start (s.issue 0x30 0x44 [] .rstTx)
  /-- R177 -/
  | sendIdentify : s.ctl = .reset → s.settleCnt = 1 →
      Row s .tick (State.issue { s with settleCnt := 0 } 0x30 0x40 [] .idTx)
  /-- R187, R191, R192 -/
  | sendRegister : s.ctl = .identified → s.settleCnt = 1 → s.serialInRange = true →
      Row s .tick (State.issue { s with settleCnt := 0 } 0x30 0x41 s.registerPayload .regTx)
  /-- R187, R190 -/
  | serialMissing : s.ctl = .identified → s.settleCnt = 1 → s.serialInRange = false →
      Row s .tick (State.raiseFailure { s with settleCnt := 0 } .serialOutOfRange)
  /-- R196 -/
  | sendPoll : s.ctl = .registered →
      Row s .step (State.issue { s with destAddr := 0x01 } 0x31 0x42 [] .pollTx)
  /-- R48 -/
  | startIgnored : s.ctl ≠ .idle → Row s .start s
  /-- R250 -/
  | reset : Row s .reset s.afterReset
  /-- R174 -/
  | settleTick : s.ctl.settling = true → 1 < s.settleCnt → Row s .tick { s with settleCnt := s.settleCnt - 1 }
  /-- R147 -/
  | backoffTick : s.ctl.reading = true → 0 < s.backoffCnt → Row s .tick { s with backoffCnt := s.backoffCnt - 1 }
  /-- R47 -/
  | tickIgnored : (s.ctl.settling = true → s.settleCnt = 0) → (s.ctl.reading = true → s.backoffCnt = 0) →
      Row s .tick s
  /-- R172 -/
  | ackReset : s.ctl = .rstTx →
      Row s (.writeAck s.txLen.toNat) { s with settleCnt := s.params.settleTicks, ctl := .reset }
  /-- R178, R188, R197 -/
  | ackRequest {next : Ctl} :
      (s.ctl = .idTx ∧ next = .idRx) ∨ (s.ctl = .regTx ∧ next = .regRx) ∨ (s.ctl = .pollTx ∧ next = .pollRx) →
      Row s (.writeAck s.txLen.toNat) { s.startRead with ctl := next }
  /-- R173, R179, R189, R198 -/
  | shortWrite {n : Nat} : s.ctl.writing = true → n ≠ s.txLen.toNat →
      Row s (.writeAck n) (s.raiseFailure .writeError)
  /-- R173, R179, R189, R198 -/
  | writeFails : s.ctl.writing = true → Row s .writeErr (s.raiseFailure .writeError)
  /-- R144 -/
  | byteKept {b : Byte} : s.ctl.reading = true → s.backoffCnt = 0 → s.rxCount.toNat < 256 →
      (s.takeByte b).terminated = false → (s.takeByte b).rxCount.toNat ≠ 256 → Row s (.rxByte b) (s.takeByte b)
  /-- R145 -/
  | byteTerminates {b : Byte} : s.ctl.reading = true → s.backoffCnt = 0 → s.rxCount.toNat < 256 →
      (s.takeByte b).terminated = true → Row s (.rxByte b) (State.readDone { s.takeByte b with rxTerm := true })
  /-- R146 -/
  | byteFills {b : Byte} : s.ctl.reading = true → s.backoffCnt = 0 → s.rxCount.toNat < 256 →
      (s.takeByte b).terminated = false → (s.takeByte b).rxCount.toNat = 256 →
      Row s (.rxByte b) (s.takeByte b).readDone
  /-- R148 -/
  | emptyBacksOff : s.ctl.reading = true → s.backoffCnt = 0 → s.emptyCnt + 1 < s.params.retryBudget →
      Row s .rxEmpty { s with emptyCnt := s.emptyCnt + 1, backoffCnt := s.params.backoffTicks }
  /-- R148, R150 -/
  | emptyGivesUp : s.ctl.reading = true → s.backoffCnt = 0 → s.params.retryBudget ≤ s.emptyCnt + 1 →
      Row s .rxEmpty (State.readDone { s with emptyCnt := s.emptyCnt + 1 })
  /-- R149 -/
  | readFails : s.ctl.reading = true → s.backoffCnt = 0 → Row s .rxErr (s.raiseFailure .readError)
  /-- R202 -/
  | telemetryReceived : s.ctl = .polled → 27 ≤ s.rxCount.toNat → Row s .step { s with ctl := .success }
  /-- R203 -/
  | telemetryShort : s.ctl = .polled → s.rxCount.toNat < 27 → Row s .step (s.raiseFailure .shortResponse)

/-! ### Which events issue a command -/

theorem fetch_start_eq_none_iff {s : State} : fetch s .start = none ↔ s.ctl ≠ .idle := by
  cases hc : s.ctl <;> simp [fetch, hc]

theorem fetch_tick_eq_none_iff {s : State} :
    fetch s .tick = none ↔ (s.ctl.settling = true → s.settleCnt ≠ 1) := by
  cases hc : s.ctl <;> simp [fetch, hc, Ctl.settling]

theorem fetch_step_eq_none_iff {s : State} : fetch s .step = none ↔ s.ctl ≠ .registered := by
  cases hc : s.ctl <;> simp [fetch, hc]

/-- Only `Start`, `Tick` and `Step` issue commands. -/
theorem fetch_eq_none {e : Event} (s : State) (h : e ≠ .start ∧ e ≠ .tick ∧ e ≠ .step) : fetch s e = none := by
  obtain ⟨h1, h2, h3⟩ := h
  cases hf : fetch s e with
  | none => rfl
  | some word =>
    rcases fetch_eq_some hf with ⟨-, he, -⟩ | ⟨-, he, -⟩ | ⟨-, he, -⟩ | ⟨-, he, -⟩
    · exact absurd he h1
    · exact absurd he h2
    · exact absurd he h2
    · exact absurd he h3

/-- A command issued is decoded and run. -/
theorem stepOn_of_exec {e : Event} {s t : State} (i : Instr) (hf : fetch s e = some (encode i))
    (h : exec i s = .next t) : stepOn e s = .next t := by
  have hd : decode (encode i) = .ok (i, []) := by cases i <;> rfl
  simp only [stepOn, hf, hd, h]

/-- An event that issues no command follows its own row. -/
theorem stepOn_of_handle {e : Event} {s : State} (hf : fetch s e = none) : stepOn e s = handle e s := by
  simp only [stepOn, hf]

/-! ### A received byte -/

/-- What a byte received with room for it leads to. -/
theorem onRxByte_of_room {b : Byte} {s : State} (h : s.rxCount.toNat < 256) :
    onRxByte b s = .next (s.takeByte b).afterByte := by
  rw [onRxByte, if_pos h]
  rfl

theorem State.afterByte_of_terminated {s : State} (h : s.terminated = true) :
    s.afterByte = State.readDone { s with rxTerm := true } := by
  rw [State.afterByte, if_pos h]

theorem State.afterByte_of_full {s : State} (h1 : s.terminated = false) (h2 : s.rxCount.toNat = 256) :
    s.afterByte = s.readDone := by
  simp [State.afterByte, h1, h2]

theorem State.afterByte_of_go_on {s : State} (h1 : s.terminated = false) (h2 : s.rxCount.toNat ≠ 256) :
    s.afterByte = s := by
  simp [State.afterByte, h1, h2]

end Sys2Proof.Machine
end

section
/-! The rows of Table T10 are what the machine does: `stepOn` answers a next state by a row and by nothing else, faults
only on a byte with no room, and refuses only what R44 rules out. -/

namespace Sys2Proof.Machine

theorem State.row_of_onTick {s : State} (hf : fetch s .tick = none) : s.Row .tick (onTick s) := by
  rcases onTick_cases s with ⟨h1, h2, h⟩ | ⟨h1, h2, h⟩ | ⟨h1, h2, h⟩ <;> rw [h]
  · exact .settleTick h1 h2
  · exact .backoffTick h1 h2
  · refine .tickIgnored (fun hs => ?_) h2
    have := h1 hs
    have := fetch_tick_eq_none_iff.mp hf hs
    omega

theorem State.row_of_onWriteAck {s : State} (n : Nat) (h : s.ctl.writing = true) :
    s.Row (.writeAck n) (onWriteAck n s) := by
  unfold onWriteAck
  by_cases hn : n = s.txLen.toNat
  · subst hn
    rw [if_pos rfl]
    cases hc : s.ctl <;> simp [hc, Ctl.writing] at h <;> simp only [State.frameSent, hc]
    · exact .ackReset hc
    · exact .ackRequest (.inl ⟨hc, rfl⟩)
    · exact .ackRequest (.inr (.inl ⟨hc, rfl⟩))
    · exact .ackRequest (.inr (.inr ⟨hc, rfl⟩))
  · rw [if_neg hn]
    exact .shortWrite h hn

theorem State.row_of_onRxByte {s t : State} {b : Byte} (hr : s.ctl.reading = true) (hb : s.backoffCnt = 0)
    (h : onRxByte b s = .next t) : s.Row (.rxByte b) t := by
  rcases onRxByte_cases b s with ⟨hroom, -⟩ | ⟨-, hfault⟩
  · rw [onRxByte_of_room hroom] at h
    cases h
    rcases (s.takeByte b).afterByte_cases with ⟨h1, h⟩ | ⟨h1, h2, h⟩ | ⟨h1, h2, h⟩ <;> rw [h]
    · exact .byteTerminates hr hb hroom h1
    · exact .byteFills hr hb hroom h1 h2
    · exact .byteKept hr hb hroom h1 h2
  · rw [hfault] at h
    cases h

theorem State.row_of_onRxEmpty {s : State} (hr : s.ctl.reading = true) (hb : s.backoffCnt = 0) :
    s.Row .rxEmpty (onRxEmpty s) := by
  rcases onRxEmpty_cases s with ⟨h1, h⟩ | ⟨h1, h⟩ <;> rw [h]
  · exact .emptyGivesUp hr hb h1
  · exact .emptyBacksOff hr hb h1

theorem State.row_of_onStep {s : State} (h : s.ctl = .polled) : s.Row .step (onStep s) := by
  unfold onStep
  split
  next hn => exact .telemetryReceived h hn
  next hn => exact .telemetryShort h (Nat.lt_of_not_le hn)

/-- An answer to a read is admitted in a reading state with no back-off running (R43, R44). -/
theorem reading_of_admits {s : State} (h : (s.ctl.reading && s.backoffCnt == 0) = true) :
    s.ctl.reading = true ∧ s.backoffCnt = 0 := by
  simpa using h

theorem State.row_of_handle {e : Event} {s t : State} (hf : fetch s e = none) (h : handle e s = .next t) :
    s.Row e t := by
  obtain ⟨ha, ht⟩ := handle_eq_next h
  cases e with
  | start =>
    rw [ht]
    exact .startIgnored (fetch_start_eq_none_iff.mp hf)
  | reset => exact ht ▸ .reset
  | tick => exact ht ▸ State.row_of_onTick hf
  | writeAck n => exact ht ▸ State.row_of_onWriteAck n ha
  | writeErr => exact ht ▸ .writeFails ha
  | rxByte b =>
    obtain ⟨hr, hb⟩ := reading_of_admits ha
    exact State.row_of_onRxByte hr hb ht
  | rxEmpty =>
    obtain ⟨hr, hb⟩ := reading_of_admits ha
    exact ht ▸ State.row_of_onRxEmpty hr hb
  | rxErr =>
    obtain ⟨hr, hb⟩ := reading_of_admits ha
    exact ht ▸ .readFails hr hb
  | step =>
    have hc : s.ctl = .registered ∨ s.ctl = .polled := (State.admits_iff_req s .step).mp ha
    rcases hc with hc | hc
    · exact absurd hc (fetch_step_eq_none_iff.mp hf)
    · exact ht ▸ State.row_of_onStep hc

/-- A next state is answered by a row of Table T10. -/
theorem State.row_of_stepOn {e : Event} {s t : State} (h : stepOn e s = .next t) : s.Row e t := by
  rcases stepOn_cases e s with ⟨hc, rfl, hs⟩ | ⟨hc, rfl, h1, hs⟩ | ⟨hc, rfl, h1, hs⟩ | ⟨hc, rfl, hs⟩ | ⟨hf, hs⟩ <;>
    rw [hs] at h
  · cases h
    exact .sendReset hc
  · cases h
    exact .sendIdentify hc h1
  · unfold execRegister at h
    cases hr : s.serialInRange <;> rw [hr] at h <;> cases h
    · exact .serialMissing hc h1 hr
    · exact .sendRegister hc h1 hr
  · cases h
    exact .sendPoll hc
  · exact State.row_of_handle hf h

/-- Every row's event is admitted (R44). -/
theorem State.Row.admits {e : Event} {s t : State} (h : s.Row e t) : s.admits e = true := by
  cases h with
  | sendReset | sendIdentify | sendRegister | serialMissing | startIgnored | reset | settleTick | backoffTick
  | tickIgnored => rfl
  | sendPoll hc | telemetryReceived hc | telemetryShort hc | ackReset hc =>
    simp [State.admits, hc, Ctl.stepping, Ctl.writing]
  | ackRequest hc => rcases hc with ⟨hc, -⟩ | ⟨hc, -⟩ | ⟨hc, -⟩ <;> simp [State.admits, hc, Ctl.writing]
  | shortWrite hw | writeFails hw => exact hw
  | byteKept hr hb | byteTerminates hr hb | byteFills hr hb | emptyBacksOff hr hb | emptyGivesUp hr hb
  | readFails hr hb => simp [State.admits, hr, hb]

theorem handle_rxByte {s : State} {b : Byte} (ha : s.admits (.rxByte b) = true) :
    handle (.rxByte b) s = onRxByte b s := by
  simp only [handle, ha, if_true]

/-- Every row is what the machine does. -/
theorem State.Row.stepOn_eq {e : Event} {s t : State} (h : s.Row e t) : stepOn e s = .next t := by
  have ha := h.admits
  cases h with
  | sendReset hc => exact stepOn_of_exec .reset (by simp [fetch, hc, encode, Instr.control, Instr.function]) rfl
  | sendIdentify hc h1 =>
    exact stepOn_of_exec .identify (by simp [fetch, hc, h1, encode, Instr.control, Instr.function]) rfl
  | sendRegister hc h1 hr =>
    exact stepOn_of_exec .register (by simp [fetch, hc, h1, encode, Instr.control, Instr.function]) (if_pos hr)
  | serialMissing hc h1 hr =>
    exact stepOn_of_exec .register (by simp [fetch, hc, h1, encode, Instr.control, Instr.function])
      (if_neg (by simp [hr]))
  | sendPoll hc => exact stepOn_of_exec .poll (by simp [fetch, hc, encode, Instr.control, Instr.function]) rfl
  | startIgnored hc =>
    rw [stepOn_of_handle (fetch_start_eq_none_iff.mpr hc)]
    simp [handle, ha]
  | settleTick hs h1 =>
    rw [stepOn_of_handle (fetch_tick_eq_none_iff.mpr fun _ => Nat.ne_of_gt h1)]
    simp [handle, ha, onTick, hs, h1]
  | backoffTick hr h1 =>
    have hs : s.ctl.settling = false := by cases hc : s.ctl <;> simp_all [Ctl.reading, Ctl.settling]
    rw [stepOn_of_handle (fetch_tick_eq_none_iff.mpr (by simp [hs]))]
    simp [handle, ha, onTick, hs, hr, h1]
  | tickIgnored hs hr =>
    rw [stepOn_of_handle (fetch_tick_eq_none_iff.mpr fun h => by simp [hs h])]
    rcases onTick_cases s with ⟨h1, h2, -⟩ | ⟨h1, h2, -⟩ | ⟨-, -, h⟩
    · exact absurd h2 (by simp [hs h1])
    · exact absurd h2 (by simp [hr h1])
    · simp [handle, ha, h]
  | ackRequest hc =>
    rw [stepOn_of_handle (fetch_eq_none s (by simp))]
    rcases hc with ⟨hc, rfl⟩ | ⟨hc, rfl⟩ | ⟨hc, rfl⟩ <;> simp [handle, ha, onWriteAck, State.frameSent, hc]
  | byteKept hr hb hroom h1 h2 =>
    rw [stepOn_of_handle (fetch_eq_none s (by simp)), handle_rxByte ha, onRxByte_of_room hroom,
      State.afterByte_of_go_on h1 h2]
  | byteTerminates hr hb hroom h1 =>
    rw [stepOn_of_handle (fetch_eq_none s (by simp)), handle_rxByte ha, onRxByte_of_room hroom,
      State.afterByte_of_terminated h1]
  | byteFills hr hb hroom h1 h2 =>
    rw [stepOn_of_handle (fetch_eq_none s (by simp)), handle_rxByte ha, onRxByte_of_room hroom,
      State.afterByte_of_full h1 h2]
  | reset | ackReset _ | shortWrite _ _ | writeFails _ | emptyBacksOff _ _ _ | emptyGivesUp _ _ _ | readFails _ _ =>
    rw [stepOn_of_handle (fetch_eq_none s (by simp))]
    simp [handle, onWriteAck, State.frameSent, onWriteErr, onRxEmpty, onRxErr, *]
  | telemetryReceived hc h1 =>
    rw [stepOn_of_handle (fetch_step_eq_none_iff.mpr (by simp [hc]))]
    simp [handle, ha, onStep, h1]
  | telemetryShort hc h1 =>
    rw [stepOn_of_handle (fetch_step_eq_none_iff.mpr (by simp [hc]))]
    simp [handle, ha, onStep, Nat.not_le.mpr h1]

/-- The machine answers a next state by the rows of Table T10 and by nothing else. -/
theorem stepOn_eq_next_iff {e : Event} {s t : State} : stepOn e s = .next t ↔ s.Row e t :=
  ⟨State.row_of_stepOn, State.Row.stepOn_eq⟩

/-- A command answers a next state from every state. -/
theorem exists_exec_eq_next (i : Instr) (s : State) : ∃ t, exec i s = .next t := by
  cases i with
  | reset | identify | poll => exact ⟨_, rfl⟩
  | register =>
    cases hr : s.serialInRange
    · exact ⟨_, if_neg (by simp [hr])⟩
    · exact ⟨_, if_pos hr⟩

/-- An admitted event is handled, but for a byte with no room (R60, log 7). -/
theorem handle_of_admits {e : Event} {s : State} (ha : s.admits e = true) :
    (∃ t, handle e s = .next t)
      ∨ ∃ b, e = .rxByte b ∧ 256 ≤ s.rxCount.toNat ∧ handle e s = .fault (.bufferIndex s.rxCount.toNat) := by
  cases e with
  | rxByte b =>
    rw [handle_rxByte ha]
    rcases onRxByte_cases b s with ⟨-, h⟩ | ⟨hfull, h⟩
    · exact .inl ⟨_, h⟩
    · exact .inr ⟨b, rfl, hfull, h⟩
  | start | reset | tick | writeAck _ | writeErr | rxEmpty | rxErr | step =>
    exact .inl ⟨_, by simp only [handle, ha, if_true]; rfl⟩

/-- What the step of an event comes to: a row of Table T10, the fault of a byte with no room (log 7), or the refusal of
an event that R44 rules out (log 5). -/
theorem stepOn_outcome (e : Event) (s : State) :
    (∃ t, stepOn e s = .next t)
      ∨ (∃ b, e = .rxByte b ∧ s.admits e = true ∧ 256 ≤ s.rxCount.toNat
          ∧ stepOn e s = .fault (.bufferIndex s.rxCount.toNat))
      ∨ (s.admits e = false ∧ stepOn e s = .refused (.inadmissible e)) := by
  rcases stepOn_cases e s with ⟨-, -, h⟩ | ⟨-, -, -, h⟩ | ⟨-, -, -, h⟩ | ⟨-, -, h⟩ | ⟨-, h⟩ <;> rw [h]
  · exact .inl (exists_exec_eq_next .reset s)
  · exact .inl (exists_exec_eq_next .identify s)
  · exact .inl (exists_exec_eq_next .register s)
  · exact .inl (exists_exec_eq_next .poll s)
  · cases ha : s.admits e
    · exact .inr (.inr ⟨rfl, by simp [handle, ha]⟩)
    · rcases handle_of_admits ha with h | ⟨b, he, hfull, h⟩
      · exact .inl h
      · exact .inr (.inl ⟨b, he, rfl, hfull, h⟩)

/-- An event is refused exactly where R44 rules it out, and by its name. -/
theorem stepOn_eq_refused_iff {e : Event} {s : State} {r : Refusal} :
    stepOn e s = .refused r ↔ s.admits e = false ∧ r = .inadmissible e := by
  rcases stepOn_outcome e s with ⟨t, h⟩ | ⟨b, -, ha, -, h⟩ | ⟨ha, h⟩
  · simp [h, (State.row_of_stepOn h).admits]
  · simp [h, ha]
  · simp [h, ha, eq_comm]

/-- The one fault is a byte received with no room for it. -/
theorem stepOn_eq_fault_iff {e : Event} {s : State} {f : Fault} :
    stepOn e s = .fault f ↔
      (∃ b, e = .rxByte b) ∧ s.admits e = true ∧ 256 ≤ s.rxCount.toNat ∧ f = .bufferIndex s.rxCount.toNat := by
  rcases stepOn_outcome e s with ⟨t, h⟩ | ⟨b, he, ha, hfull, h⟩ | ⟨ha, h⟩
  · have hrow := State.row_of_stepOn h
    simp only [h, reduceCtorEq, false_iff]
    rintro ⟨⟨b, rfl⟩, -, hfull, -⟩
    cases hrow <;> omega
  · subst he
    simp [h, ha, hfull, eq_comm (a := f)]
  · simp [h, ha]

/-- A step with an event coming follows a row of Table T10 from the state with that event taken. -/
theorem State.row_of_step {s t : State} {e : Event} {rest : List Event} (h : s.inputs = e :: rest)
    (hs : step s = .next t) : (s.withInputs rest).Row e t := by
  rw [step_of_inputs_cons h] at hs
  exact State.row_of_stepOn hs

/-- A step waits with no event coming, or follows a row of Table T10 for the next event. -/
theorem step_eq_next_cases {s t : State} (h : step s = .next t) :
    t = s ∨ ∃ e rest, s.inputs = e :: rest ∧ (s.withInputs rest).Row e t := by
  cases hi : s.inputs with
  | nil =>
    rw [step_of_inputs_nil hi] at h
    cases h
    exact .inl rfl
  | cons e rest => exact .inr ⟨e, rest, rfl, State.row_of_step hi h⟩

end Sys2Proof.Machine
end

section
/-! EveryStepKeepsTheResponseDelimited: only a received byte, a new read and `Reset` touch the response, and a byte that
completes the pair ends the read in the same step (R29, R144..R146). -/

namespace Sys2Proof.Machine

/-! ### The pair `0A 0D` in the response -/

/-- The pair `0A 0D` stands at an index of the response. -/
def State.PairAt (s : State) (i : Nat) : Prop :=
  i + 1 < s.rxCount.toNat ∧ s.rxByte i = 0x0A ∧ s.rxByte (i + 1) = 0x0D

/-- The terminator test asks for the pair at the end of the response (R145). -/
theorem State.terminated_iff (s : State) : s.terminated = true ↔ ∃ i, s.PairAt i ∧ i + 2 = s.rxCount.toNat := by
  simp only [State.terminated, State.PairAt, Bool.and_eq_true, decide_eq_true_eq, beq_iff_eq]
  constructor
  · rintro ⟨⟨h2, h1⟩, h0⟩
    refine ⟨s.rxCount.toNat - 2, ⟨by omega, h0, ?_⟩, by omega⟩
    rwa [show s.rxCount.toNat - 2 + 1 = s.rxCount.toNat - 1 by omega]
  · rintro ⟨i, ⟨-, h0, h1⟩, hi⟩
    rw [show s.rxCount.toNat - 1 = i + 1 by omega, show s.rxCount.toNat - 2 = i by omega]
    exact ⟨⟨by omega, h1⟩, h0⟩

/-- `rx_term` says of the response whether the pair stands at its end, and the pair stands nowhere else: what is left
of `State.Delimited` once the read has ended. -/
def State.Marked (s : State) : Prop :=
  (s.rxTerm = true → s.terminated = true) ∧ ∀ i, s.PairAt i → s.rxTerm = true ∧ i + 2 = s.rxCount.toNat

theorem State.delimited_iff (s : State) : s.Delimited ↔ s.Marked ∧ (s.ctl.reading = true → s.rxTerm = false) := by
  constructor
  · intro h
    exact ⟨⟨h.seen, fun i ⟨hi, h0, h1⟩ => h.firstPair i hi h0 h1⟩, h.goesOn⟩
  · rintro ⟨⟨hseen, hpair⟩, hgoes⟩
    exact ⟨hgoes, hseen, fun i hi h0 h1 => hpair i ⟨hi, h0, h1⟩⟩

/-- An empty response holds no pair. -/
theorem State.marked_of_empty {s : State} (hcount : s.rxCount = 0) (hterm : s.rxTerm = false) : s.Marked := by
  refine ⟨by simp [hterm], fun i ⟨hi, _⟩ => ?_⟩
  simp [hcount] at hi

/-- What the response's bytes and `rx_term` are read from decides whether it is marked. -/
theorem State.Marked.congr {s t : State} (h : s.Marked) (hbuf : t.rxBuf = s.rxBuf) (hepoch : t.epoch = s.epoch)
    (hcount : t.rxCount = s.rxCount) (hterm : t.rxTerm = s.rxTerm) : t.Marked := by
  have hbyte : t.rxByte = s.rxByte := by
    funext i
    simp only [State.rxByte, hbuf, hepoch]
  simpa only [State.Marked, State.terminated, State.PairAt, hbyte, hcount, hterm] using h

/-- A step that leaves the response alone and enters no read keeps it delimited. -/
theorem State.Delimited.congr {s t : State} (h : s.Delimited) (hbuf : t.rxBuf = s.rxBuf) (hepoch : t.epoch = s.epoch)
    (hcount : t.rxCount = s.rxCount) (hterm : t.rxTerm = s.rxTerm)
    (hreading : t.ctl.reading = true → s.ctl.reading = true) : t.Delimited := by
  obtain ⟨hm, hgoes⟩ := s.delimited_iff.mp h
  exact t.delimited_iff.mpr ⟨hm.congr hbuf hepoch hcount hterm, fun hr => hterm ▸ hgoes (hreading hr)⟩

/-- A command's write leaves the response alone, and no read goes on after it. -/
theorem State.Delimited.issue {s : State} {control function : Byte} {payload : List Byte} {next : Ctl}
    (h : s.Delimited) (hnext : next.reading = false) : (s.issue control function payload next).Delimited := by
  refine h.congr (by simp) (by simp) (by simp) (by simp) fun hr => ?_
  rcases s.issue_ctl_cases control function payload next with hc | hc <;> rw [hc] at hr
  · rw [hnext] at hr
    cases hr
  · cases hr

/-- The end of a read keeps the response, and no read goes on after it. -/
theorem State.Marked.readDone {s : State} (h : s.Marked) (hr : s.ctl.reading = true) : s.readDone.Delimited := by
  refine s.readDone.delimited_iff.mpr ⟨h.congr ?_ ?_ ?_ ?_, ?_⟩ <;> simp [State.readDone_not_reading hr]

/-- In a read that goes on, one more byte can complete the pair at the very end only. -/
theorem State.Delimited.pairAt_takeByte {s : State} {b : Byte} {i : Nat} (h : s.Delimited)
    (hr : s.ctl.reading = true) (hroom : s.rxCount.toNat < 256) (hp : (s.takeByte b).PairAt i) :
    i + 2 = (s.takeByte b).rxCount.toNat := by
  obtain ⟨hi, h0, h1⟩ := hp
  rw [State.takeByte_rxCount_toNat s b hroom] at hi ⊢
  by_contra hne
  rw [State.takeByte_rxByte, if_neg (by omega)] at h0 h1
  have hterm := (h.firstPair i (by omega) h0 h1).1
  rw [h.goesOn hr] at hterm
  cases hterm

theorem State.Delimited.marked_takeByte {s : State} {b : Byte} (h : s.Delimited) (hr : s.ctl.reading = true)
    (hroom : s.rxCount.toNat < 256) (hterm : (s.takeByte b).terminated = false) : (s.takeByte b).Marked := by
  refine ⟨by simp [h.goesOn hr], fun i hp => ?_⟩
  have := (s.takeByte b).terminated_iff.mpr ⟨i, hp, h.pairAt_takeByte hr hroom hp⟩
  rw [hterm] at this
  cases this

theorem State.Delimited.marked_terminated {s : State} {b : Byte} (h : s.Delimited) (hr : s.ctl.reading = true)
    (hroom : s.rxCount.toNat < 256) (hterm : (s.takeByte b).terminated = true) :
    State.Marked { s.takeByte b with rxTerm := true } :=
  ⟨fun _ => hterm, fun _ hp => ⟨rfl, h.pairAt_takeByte hr hroom hp⟩⟩

/-- Every row of Table T10 keeps the response delimited. -/
theorem State.Delimited.row {s t : State} {e : Event} (h : s.Delimited) (hrow : s.Row e t) : t.Delimited := by
  cases hrow with
  | sendReset _ => exact h.issue rfl
  | sendIdentify _ _ | sendRegister _ _ _ =>
    have hs : State.Delimited { s with settleCnt := 0 } := h.congr rfl rfl rfl rfl id
    exact hs.issue rfl
  | sendPoll _ =>
    have hs : State.Delimited { s with destAddr := 0x01 } := h.congr rfl rfl rfl rfl id
    exact hs.issue rfl
  | reset => exact (State.delimited_iff _).mpr ⟨State.marked_of_empty rfl rfl, fun _ => rfl⟩
  | ackRequest _ => exact (State.delimited_iff _).mpr ⟨State.marked_of_empty rfl rfl, fun _ => rfl⟩
  | byteKept hr _ hroom hterm _ =>
    exact (State.delimited_iff _).mpr ⟨h.marked_takeByte hr hroom hterm, fun _ => h.goesOn hr⟩
  | byteTerminates hr _ hroom hterm => exact (h.marked_terminated hr hroom hterm).readDone hr
  | byteFills hr _ hroom hterm _ => exact (h.marked_takeByte hr hroom hterm).readDone hr
  | emptyGivesUp hr _ _ =>
    have hm : State.Marked { s with emptyCnt := s.emptyCnt + 1 } := (s.delimited_iff.mp h).1.congr rfl rfl rfl rfl
    exact hm.readDone hr
  | startIgnored _ | settleTick _ _ | backoffTick _ _ | tickIgnored _ _ | emptyBacksOff _ _ _ =>
    exact h.congr rfl rfl rfl rfl id
  | serialMissing _ _ _ | ackReset _ | shortWrite _ _ | writeFails _ | readFails _ _ | telemetryReceived _ _
  | telemetryShort _ _ => exact h.congr rfl rfl rfl rfl nofun

/-- Settles O49: the response is delimited at reset, and every row of Table T10 keeps it so. -/
theorem everyStepKeepsTheResponseDelimited : Obligations.EveryStepKeepsTheResponseDelimited := by
  refine ⟨(State.delimited_iff _).mpr ⟨State.marked_of_empty rfl rfl, fun _ => rfl⟩, fun s t h hs => ?_⟩
  rcases step_eq_next_cases hs with rfl | ⟨e, rest, -, hrow⟩
  · exact h
  · have hw : (s.withInputs rest).Delimited := h.congr rfl rfl rfl rfl id
    exact hw.row hrow

end Sys2Proof.Machine
end

section
/-! StaleBytesAreNeverRead and TraceNeverAffectsTheStep: a relation between states that every row of Table T10 keeps,
with the event's admission decided alike on both sides, is kept by the step. -/

namespace Sys2Proof.Machine

/-! ### Simulations -/

/-- What a relation has to keep for the related states to step alike. -/
structure Simulates (R : State → State → Prop) : Prop where
  /-- the same events come -/
  inputs : ∀ {s t}, R s t → s.inputs = t.inputs
  /-- taking an event keeps the relation -/
  withInputs : ∀ {s t} (es : List Event), R s t → R (s.withInputs es) (t.withInputs es)
  /-- the same events are admitted -/
  admits : ∀ {s t} (e : Event), R s t → s.admits e = t.admits e
  /-- the buffer is equally full -/
  rxCount : ∀ {s t}, R s t → s.rxCount = t.rxCount
  /-- a row is answered by a row -/
  row : ∀ {s t s' e}, R s t → s.Row e s' → ∃ t', t.Row e t' ∧ R s' t'

/-- Two outcomes of the same kind, with related next states or the same reason to stop. -/
inductive OutcomesRelated (R : State → State → Prop) :
    Host.Outcome State Fault Refusal → Host.Outcome State Fault Refusal → Prop
  /-- both go on -/
  | next {s t : State} : R s t → OutcomesRelated R (.next s) (.next t)
  /-- both fault -/
  | fault (f : Fault) : OutcomesRelated R (.fault f) (.fault f)
  /-- both are refused -/
  | refused (r : Refusal) : OutcomesRelated R (.refused r) (.refused r)

section
variable {R : State → State → Prop} {o : Host.Outcome State Fault Refusal}

theorem OutcomesRelated.exists_of_next {s : State} (h : OutcomesRelated R (.next s) o) : ∃ t, o = .next t ∧ R s t := by
  cases h with
  | next h => exact ⟨_, rfl, h⟩

theorem OutcomesRelated.eq_of_fault {f : Fault} (h : OutcomesRelated R (.fault f) o) : o = .fault f := by
  cases h
  rfl

theorem OutcomesRelated.eq_of_refused {r : Refusal} (h : OutcomesRelated R (.refused r) o) : o = .refused r := by
  cases h
  rfl

end

theorem Simulates.stepOn {R : State → State → Prop} (hR : Simulates R) {s t : State} (h : R s t) (e : Event) :
    OutcomesRelated R (stepOn e s) (stepOn e t) := by
  cases ho : Machine.stepOn e s with
  | next s' =>
    obtain ⟨t', hrow, h'⟩ := hR.row h (stepOn_eq_next_iff.mp ho)
    rw [hrow.stepOn_eq]
    exact .next h'
  | fault f =>
    rw [stepOn_eq_fault_iff, hR.admits e h, hR.rxCount h] at ho
    rw [stepOn_eq_fault_iff.mpr ho]
    exact .fault f
  | refused r =>
    rw [stepOn_eq_refused_iff, hR.admits e h] at ho
    rw [stepOn_eq_refused_iff.mpr ho]
    exact .refused r

/-- Related states step to related outcomes. -/
theorem Simulates.step {R : State → State → Prop} (hR : Simulates R) {s t : State} (h : R s t) :
    OutcomesRelated R (step s) (step t) := by
  cases hi : s.inputs with
  | nil =>
    rw [step_of_inputs_nil hi, step_of_inputs_nil (hR.inputs h ▸ hi)]
    exact .next h
  | cons e rest =>
    rw [step_of_inputs_cons hi, step_of_inputs_cons (hR.inputs h ▸ hi)]
    exact hR.stepOn (hR.withInputs rest h) e

/-! ### States alike in what may be read -/

/-- The state with other buffers, in another epoch. -/
def State.withMemory (s : State) (tx rx : Memory) (epoch : Nat) : State :=
  { s with txBuf := tx, rxBuf := rx, epoch := epoch }

theorem State.Alike.exists_withMemory {s t : State} (h : s.Alike t) : ∃ tx rx epoch, t = s.withMemory tx rx epoch :=
  ⟨t.txBuf, t.rxBuf, t.epoch, h.registers⟩

/-- A byte of the response is the same in both states. -/
theorem State.Alike.rxByte {s t : State} (h : s.Alike t) {i : Nat} (hi : i < s.rxCount.toNat) :
    s.rxByte i = t.rxByte i := by
  have hcount : t.rxCount = s.rxCount := by rw [h.registers]
  have hget := congrArg (·[i]?) h.response
  simpa [State.lastResponse, State.rxBytes, hcount, hi] using hget

/-- The terminator test reads the response only. -/
theorem State.Alike.terminated {s t : State} (h : s.Alike t) : s.terminated = t.terminated := by
  have hcount : t.rxCount = s.rxCount := by rw [h.registers]
  simp only [State.terminated, hcount]
  by_cases h2 : 2 ≤ s.rxCount.toNat
  · rw [h.rxByte (i := s.rxCount.toNat - 1) (by omega), h.rxByte (i := s.rxCount.toNat - 2) (by omega)]
  · simp [h2]

theorem State.serialInRange_iff (s : State) :
    s.serialInRange = true ↔ 7 + (s.rxByte 6).toNat ≤ s.rxCount.toNat :=
  decide_eq_true_iff

/-- The range check of REGISTER reads the response only: with no byte 6 received it fails whatever stands there. -/
theorem State.Alike.serialInRange {s t : State} (h : s.Alike t) : s.serialInRange = t.serialInRange := by
  have hcount : t.rxCount = s.rxCount := by rw [h.registers]
  rw [Bool.eq_iff_iff, State.serialInRange_iff, State.serialInRange_iff, hcount]
  by_cases h7 : 7 ≤ s.rxCount.toNat
  · rw [h.rxByte (by omega)]
  · omega

/-- REGISTER's payload is of received bytes only. -/
theorem State.Alike.registerPayload {s t : State} (h : s.Alike t) (hr : s.serialInRange = true) :
    s.registerPayload = t.registerPayload := by
  rw [State.serialInRange_iff] at hr
  simp only [State.registerPayload, State.serialNumber, State.serialLength, State.rxBytes,
    ← h.rxByte (i := 6) (by omega)]
  congr 1
  refine List.map_congr_left fun k hk => h.rxByte ?_
  have hk := List.mem_range.mp hk
  show 7 + k < s.rxCount.toNat
  omega

theorem State.issue_lastResponse (s : State) (control function : Byte) (payload : List Byte) (next : Ctl) :
    (s.issue control function payload next).lastResponse = s.lastResponse := by
  simp [State.lastResponse, State.rxBytes, State.rxByte]

/-- A command's write is built from registers and its payload. -/
theorem State.Alike.issue {s t : State} (h : s.Alike t) (control function : Byte) (payload : List Byte) (next : Ctl) :
    (s.issue control function payload next).Alike (t.issue control function payload next) := by
  have hdest : s.destAddr = t.destAddr := by rw [h.registers]
  have hresponse := h.response
  rw [← s.issue_lastResponse control function payload next, ← t.issue_lastResponse control function payload next]
    at hresponse
  refine ⟨?_, ?_, hresponse⟩ <;> rcases Nat.lt_or_ge 240 payload.length with hlen | hlen
  · rw [State.issue_refused hlen, State.issue_refused hlen, h.registers]
    rfl
  · rw [State.issue_ok hlen, State.issue_ok hlen, h.registers]
  · rw [State.issue_refused hlen, State.issue_refused hlen]
    rfl
  · rw [State.issue_txFrame hlen, State.issue_txFrame hlen, hdest]

theorem State.acceptResponse_withMemory (s : State) (tx rx : Memory) (epoch : Nat) :
    (s.withMemory tx rx epoch).acceptResponse = s.acceptResponse.withMemory tx rx epoch := by
  cases hc : s.ctl <;> simp only [State.acceptResponse, State.withMemory, hc]

/-- The end of a read reads the response only. -/
theorem State.Alike.readDone {s t : State} (h : s.Alike t) : s.readDone.Alike t.readDone := by
  have hresponse := h.response
  obtain ⟨tx, rx, epoch, rfl⟩ := h.exists_withMemory
  have hemit : (s.withMemory tx rx epoch).emit (.rx s.lastResponse)
      = (s.emit (.rx s.lastResponse)).withMemory tx rx epoch := rfl
  rcases Nat.lt_or_ge s.rxCount.toNat 7 with h7 | h7
  · rw [State.readDone_of_short h7, State.readDone_of_short (s := s.withMemory tx rx epoch) h7, ← hresponse]
    exact ⟨rfl, h.frame, h.response⟩
  · rw [State.readDone_of_header h7, State.readDone_of_header (s := s.withMemory tx rx epoch) h7, ← hresponse, hemit,
      State.acceptResponse_withMemory]
    obtain ⟨ctl, settleCnt, ha⟩ := (s.emit (.rx s.lastResponse)).acceptResponse_frame
    rw [ha]
    exact ⟨rfl, h.frame, h.response⟩

/-- A received byte joins the response. -/
theorem State.Alike.takeByte {s t : State} (h : s.Alike t) (b : Byte) (hroom : s.rxCount.toNat < 256) :
    (s.takeByte b).Alike (t.takeByte b) := by
  have hcount : t.rxCount = s.rxCount := by rw [h.registers]
  refine ⟨?_, ?_, ?_⟩
  · obtain ⟨tx, rx, epoch, rfl⟩ := h.exists_withMemory
    rfl
  · exact h.frame
  · rw [State.takeByte_lastResponse s b hroom, State.takeByte_lastResponse t b (hcount ▸ hroom), h.response]

/-- Every row reads what is alike only. -/
theorem State.Alike.row {s t s' : State} {e : Event} (h : s.Alike t) (hrow : s.Row e s') :
    ∃ t', t.Row e t' ∧ s'.Alike t' := by
  have hframe := h.frame
  have hresponse := h.response
  have hterminated := fun b hroom => (h.takeByte b hroom).terminated
  have hserial := h.serialInRange
  obtain ⟨tx, rx, epoch, rfl⟩ := h.exists_withMemory
  cases hrow with
  | sendReset hc => exact ⟨_, .sendReset hc, h.issue _ _ _ _⟩
  | sendIdentify hc h1 =>
    have hs : State.Alike { s with settleCnt := 0 } { s.withMemory tx rx epoch with settleCnt := 0 } :=
      ⟨rfl, hframe, hresponse⟩
    exact ⟨_, .sendIdentify hc h1, hs.issue _ _ _ _⟩
  | sendRegister hc h1 hr =>
    have hs : State.Alike { s with settleCnt := 0 } { s.withMemory tx rx epoch with settleCnt := 0 } :=
      ⟨rfl, hframe, hresponse⟩
    rw [h.registerPayload hr]
    exact ⟨_, .sendRegister hc h1 (hserial ▸ hr), hs.issue _ _ _ _⟩
  | serialMissing hc h1 hr => exact ⟨_, .serialMissing hc h1 (hserial ▸ hr), rfl, hframe, hresponse⟩
  | sendPoll hc =>
    have hs : State.Alike { s with destAddr := 0x01 } { s.withMemory tx rx epoch with destAddr := 0x01 } :=
      ⟨rfl, hframe, hresponse⟩
    exact ⟨_, .sendPoll hc, hs.issue _ _ _ _⟩
  | startIgnored hc => exact ⟨_, .startIgnored hc, h⟩
  | reset => exact ⟨_, .reset, rfl, rfl, rfl⟩
  | settleTick hs h1 => exact ⟨_, .settleTick hs h1, rfl, hframe, hresponse⟩
  | backoffTick hr h1 => exact ⟨_, .backoffTick hr h1, rfl, hframe, hresponse⟩
  | tickIgnored hs hr => exact ⟨_, .tickIgnored hs hr, h⟩
  | ackReset hc => exact ⟨_, .ackReset hc, rfl, hframe, hresponse⟩
  | ackRequest hc => exact ⟨_, .ackRequest hc, rfl, hframe, rfl⟩
  | shortWrite hw hn => exact ⟨_, .shortWrite hw hn, rfl, hframe, hresponse⟩
  | writeFails hw => exact ⟨_, .writeFails hw, rfl, hframe, hresponse⟩
  | @byteKept b hr hb hroom hterm hn =>
    exact ⟨_, .byteKept hr hb hroom (hterminated b hroom ▸ hterm) hn, h.takeByte b hroom⟩
  | @byteTerminates b hr hb hroom hterm =>
    have hu := h.takeByte b hroom
    have hs : State.Alike { s.takeByte b with rxTerm := true }
        { (s.withMemory tx rx epoch).takeByte b with rxTerm := true } := ⟨rfl, hu.frame, hu.response⟩
    exact ⟨_, .byteTerminates hr hb hroom (hterminated b hroom ▸ hterm), hs.readDone⟩
  | @byteFills b hr hb hroom hterm hn =>
    exact ⟨_, .byteFills hr hb hroom (hterminated b hroom ▸ hterm) hn, (h.takeByte b hroom).readDone⟩
  | emptyBacksOff hr hb h1 => exact ⟨_, .emptyBacksOff hr hb h1, rfl, hframe, hresponse⟩
  | emptyGivesUp hr hb h1 =>
    have hs : State.Alike { s with emptyCnt := s.emptyCnt + 1 }
        { s.withMemory tx rx epoch with emptyCnt := s.emptyCnt + 1 } := ⟨rfl, hframe, hresponse⟩
    exact ⟨_, .emptyGivesUp hr hb h1, hs.readDone⟩
  | readFails hr hb => exact ⟨_, .readFails hr hb, rfl, hframe, hresponse⟩
  | telemetryReceived hc h1 => exact ⟨_, .telemetryReceived hc h1, rfl, hframe, hresponse⟩
  | telemetryShort hc h1 => exact ⟨_, .telemetryShort hc h1, rfl, hframe, hresponse⟩

theorem simulates_alike : Simulates State.Alike where
  inputs h := by rw [h.registers]
  withInputs es h := by
    have hframe := h.frame
    have hresponse := h.response
    obtain ⟨tx, rx, epoch, rfl⟩ := h.exists_withMemory
    exact ⟨rfl, hframe, hresponse⟩
  admits e h := by
    rw [h.registers]
    rfl
  rxCount h := by rw [h.registers]
  row := State.Alike.row

theorem OutcomesRelated.alike {o p : Host.Outcome State Fault Refusal} (h : OutcomesRelated State.Alike o p) :
    OutcomesAlike o p := by
  cases h with
  | next h => exact h
  | fault f => rfl
  | refused r => rfl

/-- Settles O59: being alike in what may be read is a simulation of the step by itself. -/
theorem staleBytesAreNeverRead : Obligations.StaleBytesAreNeverRead :=
  fun _ _ h => (simulates_alike.step h).alike

/-! ### States with another trace -/

/-- The same state but for the trace. -/
def State.SameButTrace (s t : State) : Prop := t = { s with trace := t.trace }

/-- A command's write is built and judged without the trace. -/
theorem State.sameButTrace_issue (s : State) (trace : List TraceRecord) (control function : Byte)
    (payload : List Byte) (next : Ctl) :
    (s.issue control function payload next).SameButTrace
      (State.issue { s with trace := trace } control function payload next) := by
  unfold State.SameButTrace
  rcases Nat.lt_or_ge 240 payload.length with hlen | hlen
  · rw [State.issue_refused hlen, State.issue_refused hlen]
    rfl
  · rw [State.issue_ok hlen, State.issue_ok hlen]

/-- The end of a read judges the response without the trace. -/
theorem State.sameButTrace_readDone (s : State) (trace : List TraceRecord) :
    s.readDone.SameButTrace (State.readDone { s with trace := trace }) := by
  unfold State.SameButTrace
  rcases Nat.lt_or_ge s.rxCount.toNat 7 with h7 | h7
  · rw [State.readDone_of_short h7, State.readDone_of_short (s := { s with trace := trace }) h7]
    rfl
  · rw [State.readDone_of_header h7, State.readDone_of_header (s := { s with trace := trace }) h7]
    cases hc : s.ctl <;> simp only [State.acceptResponse, State.emit, hc]

/-- Every row is taken without regard to the trace. -/
theorem State.SameButTrace.row {s t s' : State} {e : Event} (h : s.SameButTrace t) (hrow : s.Row e s') :
    ∃ t', t.Row e t' ∧ s'.SameButTrace t' := by
  obtain ⟨trace, rfl⟩ : ∃ trace, t = { s with trace := trace } := ⟨_, h⟩
  cases hrow with
  | sendReset hc => exact ⟨_, .sendReset hc, s.sameButTrace_issue _ _ _ _ _⟩
  | sendIdentify hc h1 => exact ⟨_, .sendIdentify hc h1, State.sameButTrace_issue _ _ _ _ _ _⟩
  | sendRegister hc h1 hr => exact ⟨_, .sendRegister hc h1 hr, State.sameButTrace_issue _ _ _ _ _ _⟩
  | serialMissing hc h1 hr => exact ⟨_, .serialMissing hc h1 hr, rfl⟩
  | sendPoll hc => exact ⟨_, .sendPoll hc, State.sameButTrace_issue _ _ _ _ _ _⟩
  | startIgnored hc => exact ⟨_, .startIgnored hc, rfl⟩
  | reset => exact ⟨_, .reset, rfl⟩
  | settleTick hs h1 => exact ⟨_, .settleTick hs h1, rfl⟩
  | backoffTick hr h1 => exact ⟨_, .backoffTick hr h1, rfl⟩
  | tickIgnored hs hr => exact ⟨_, .tickIgnored hs hr, rfl⟩
  | ackReset hc => exact ⟨_, .ackReset hc, rfl⟩
  | ackRequest hc => exact ⟨_, .ackRequest hc, rfl⟩
  | shortWrite hw hn => exact ⟨_, .shortWrite hw hn, rfl⟩
  | writeFails hw => exact ⟨_, .writeFails hw, rfl⟩
  | byteKept hr hb hroom hterm hn => exact ⟨_, .byteKept hr hb hroom hterm hn, rfl⟩
  | byteTerminates hr hb hroom hterm =>
    exact ⟨_, .byteTerminates hr hb hroom hterm, State.sameButTrace_readDone _ _⟩
  | byteFills hr hb hroom hterm hn => exact ⟨_, .byteFills hr hb hroom hterm hn, State.sameButTrace_readDone _ _⟩
  | emptyBacksOff hr hb h1 => exact ⟨_, .emptyBacksOff hr hb h1, rfl⟩
  | emptyGivesUp hr hb h1 => exact ⟨_, .emptyGivesUp hr hb h1, State.sameButTrace_readDone _ _⟩
  | readFails hr hb => exact ⟨_, .readFails hr hb, rfl⟩
  | telemetryReceived hc h1 => exact ⟨_, .telemetryReceived hc h1, rfl⟩
  | telemetryShort hc h1 => exact ⟨_, .telemetryShort hc h1, rfl⟩

theorem simulates_sameButTrace : Simulates State.SameButTrace where
  inputs h := by rw [h]
  withInputs es h := by
    rw [h]
    rfl
  admits e h := by
    rw [h]
    rfl
  rxCount h := by rw [h]
  row := State.SameButTrace.row

/-- Settles O58: being the same but for the trace is a simulation of the step by itself. -/
theorem traceNeverAffectsTheStep : Obligations.TraceNeverAffectsTheStep := by
  intro s other
  have h := simulates_sameButTrace.step (s := s) (t := { s with trace := other }) rfl
  refine ⟨fun t hs => ?_, fun f hs => ?_, fun r hs => ?_⟩ <;> rw [hs] at h
  · exact h.exists_of_next
  · exact h.eq_of_fault
  · exact h.eq_of_refused

end Sys2Proof.Machine
end

section
/-! The other statements about the state: what each event may change, which outputs are read from which registers, and
where the machine stops. -/

namespace Sys2Proof.Machine

/-! ### Reset -/

theorem State.reset_atReset : State.reset.AtReset := by
  constructor <;> intros <;> rfl

theorem State.afterReset_atReset (s : State) : s.afterReset.AtReset := by
  constructor <;> intros <;> rfl

/-- Settles O1: the row of `Reset` can be taken in every state. -/
theorem resetEventResetsFromAnyState : Obligations.ResetEventResetsFromAnyState := by
  refine ⟨State.reset_atReset, fun s rest hi => ⟨(s.withInputs rest).afterReset, ?_, State.afterReset_atReset _, rfl⟩⟩
  rw [step_of_inputs_cons hi]
  exact State.Row.reset.stepOn_eq

/-! ### Admission -/

/-- The one write a state can have outstanding is that of its frame (R43). -/
theorem State.req_eq_write_iff {s : State} : s.req = .write s.txFrame ↔ ∃ frame, s.req = .write frame := by
  refine ⟨fun h => ⟨_, h⟩, fun ⟨frame, h⟩ => ?_⟩
  unfold State.req at h ⊢
  split at h
  next hw => exact if_pos hw
  next => split at h <;> cases h

@[simp] theorem State.withInputs_admits (s : State) (es : List Event) (e : Event) :
    (s.withInputs es).admits e = s.admits e := rfl

theorem step_refused_iff {s : State} {e : Event} {rest : List Event} (h : s.inputs = e :: rest) :
    (∃ r, step s = .refused r) ↔ s.admits e ≠ true := by
  simp [step_of_inputs_cons h, stepOn_eq_refused_iff]

/-- Settles O24: the refusals are those of `State.admits`, which says of each event what R43 and R44 say. -/
theorem onlyInadmissibleEventsAreRefused : Obligations.OnlyInadmissibleEventsAreRefused := by
  intro s e rest hi
  rw [step_refused_iff hi, ne_eq, State.admits_iff_req]
  cases e with
  | start | reset | tick => simp
  | writeAck n => simp [State.req_eq_write_iff]
  | writeErr => simp [State.req_eq_write_iff]
  | rxByte _ | rxEmpty | rxErr => rfl
  | step => simp

/-- A row takes no event but its own. -/
theorem State.Row.inputs_eq {s t : State} {e : Event} (h : s.Row e t) : t.inputs = s.inputs := by
  cases h <;> simp [State.takeByte]

/-- A legal state has room for every byte it asks for (R60, R146). -/
theorem State.Legal.not_fault {s : State} (h : s.Legal) (f : Fault) : step s ≠ .fault f := by
  cases hi : s.inputs with
  | nil => simp [step_of_inputs_nil hi]
  | cons e rest =>
    rw [step_of_inputs_cons hi, ne_eq, stepOn_eq_fault_iff]
    rintro ⟨⟨b, rfl⟩, ha, hfull, -⟩
    have hroom := h.rxRoom (reading_of_admits ha).1
    rw [State.withInputs_rxCount] at hfull
    omega

/-- Settles O25: of the three outcomes, legality excludes the fault and admission the refusal. -/
theorem legalStatesStepOnAdmittedEvents : Obligations.LegalStatesStepOnAdmittedEvents := by
  refine fun s h => ⟨step_of_inputs_nil, h.not_fault, fun e rest hi ha => ?_⟩
  cases hs : step s with
  | next t => exact ⟨t, rfl, (State.row_of_step hi hs).inputs_eq⟩
  | fault f => exact absurd hs (h.not_fault f)
  | refused r => exact absurd ha ((step_refused_iff hi).mp ⟨r, hs⟩)

/-! ### `Start` and `Tick` -/

/-- Settles O26: the two rows of `Start`. -/
theorem startActsInIdleOnly : Obligations.StartActsInIdleOnly := by
  intro s rest hi
  rw [step_of_inputs_cons hi]
  refine ⟨fun hc => ⟨_, State.Row.stepOn_eq (.sendReset hc), State.issue_nil_ctl _ _ _ _⟩, fun hc => ?_⟩
  exact State.Row.stepOn_eq (.startIgnored hc)

/-- A `Tick` is taken in every state. -/
theorem exists_step_tick {s : State} {rest : List Event} (hi : s.inputs = .tick :: rest) :
    ∃ t, step s = .next t ∧ (s.withInputs rest).Row .tick t := by
  rw [step_of_inputs_cons hi]
  rcases stepOn_outcome .tick (s.withInputs rest) with ⟨t, h⟩ | ⟨b, he, -⟩ | ⟨ha, -⟩
  · exact ⟨t, h, State.row_of_stepOn h⟩
  · cases he
  · cases ha

/-- A `Tick` that ends no settle delay counts one of the two timers, or none (R47). -/
theorem State.Row.tick_counts {s t : State} (h : s.Row .tick t) (hend : ¬(s.ctl.settling = true ∧ s.settleCnt = 1)) :
    t = { s with settleCnt := t.settleCnt, backoffCnt := t.backoffCnt } := by
  cases h with
  | settleTick _ _ | backoffTick _ _ | tickIgnored _ _ => rfl
  | sendIdentify hc h1 => exact absurd ⟨by rw [hc]; rfl, h1⟩ hend
  | sendRegister hc h1 _ | serialMissing hc h1 _ => exact absurd ⟨by rw [hc]; rfl, h1⟩ hend

/-- Settles O27: with no counter running the `Tick` is ignored, and the only rows of `Tick` that write more than a
counter are those that end a settle delay. -/
theorem tickCountsOrChangesNothing : Obligations.TickCountsOrChangesNothing := by
  intro s rest hi
  refine ⟨fun hc => ?_, fun hend => ?_⟩
  · rw [step_of_inputs_cons hi]
    refine State.Row.stepOn_eq (.tickIgnored (fun h => ?_) fun h => ?_)
    · rcases (Ctl.settling_iff _).mp h with h | h <;> rw [State.withInputs_ctl] at h <;>
        simp [h, Ctl.writing, Ctl.reading] at hc
    · rcases (Ctl.reading_iff _).mp h with h | h | h <;> rw [State.withInputs_ctl] at h <;>
        simpa [h, Ctl.writing, Ctl.reading] using hc
  · obtain ⟨t, hs, hrow⟩ := exists_step_tick hi
    exact ⟨t, hs, hrow.tick_counts hend⟩

/-! ### Fields that few rows write -/

theorem State.Row.params_eq {s t : State} {e : Event} (h : s.Row e t) : t.params = s.params := by
  cases h <;> simp

/-- Settles O55: no row writes the parameters. -/
theorem noStepChangesTheParameters : Obligations.NoStepChangesTheParameters := by
  intro s t h
  rcases step_eq_next_cases h with rfl | ⟨e, rest, -, hrow⟩
  · rfl
  · exact hrow.params_eq

/-- `dest_addr` is written by `Reset` and by POLL only (R24). -/
theorem State.Row.destAddr_cases {s t : State} {e : Event} (h : s.Row e t) :
    t.destAddr = s.destAddr ∨ (e = .reset ∧ t.destAddr = 0x00)
      ∨ (s.ctl = .registered ∧ e = .step ∧ t.destAddr = 0x01) := by
  cases h with
  | reset => exact .inr (.inl ⟨rfl, rfl⟩)
  | sendPoll hc => exact .inr (.inr ⟨hc, rfl, State.issue_destAddr _ _ _ _ _⟩)
  | _ => exact .inl (by simp)

/-- Settles O53: the rows that write `dest_addr`, and what legality says of it where a frame is written. -/
theorem onlyPollWritesTheDestination : Obligations.OnlyPollWritesTheDestination := by
  refine ⟨fun s t e rest hi hs hne => ?_, fun s h => ⟨?_, fun hc => ?_, fun hc => ?_⟩⟩
  · exact (State.row_of_step hi hs).destAddr_cases.resolve_left hne
  · rw [h.dest]
    split
    · exact .inr rfl
    · exact .inl rfl
  · rw [h.dest]
    rcases hc with hc | hc | hc <;> simp [State.stage, hc, Ctl.addressAssigned]
  · rw [h.dest]
    simp [State.stage, hc, Ctl.addressAssigned]

/-! ### The order of the source's states -/

/-- A session that has not ended may fail. -/
theorem Ctl.mayFollow_failed {c : Ctl} (h : c ≠ .success) : c.sourceState.mayFollow .failed = true := by
  cases c with
  | success => exact absurd rfl h
  | _ => rfl

theorem SourceState.mayFollow_self (a : SourceState) : a.mayFollow a = true := by
  cases a <;> rfl

/-- A command's write goes on to its own state or fails the session. -/
theorem State.mayFollow_issue {s : State} {c next : Ctl} {control function : Byte} {payload : List Byte}
    (h : c.sourceState.mayFollow next.sourceState = true) (hc : c ≠ .success) :
    c.sourceState.mayFollow (s.issue control function payload next).ctl.sourceState = true := by
  rcases s.issue_ctl_cases control function payload next with hn | hn <;> rw [hn]
  · exact h
  · exact Ctl.mayFollow_failed hc

/-- The end of a read goes on to the state of its response or fails the session. -/
theorem State.mayFollow_readDone {s u : State} (hu : u.ctl = s.ctl) (hr : s.ctl.reading = true) :
    s.ctl.sourceState.mayFollow u.readDone.ctl.sourceState = true := by
  rw [← hu] at hr ⊢
  rcases State.readDone_ctl_cases hr with h | ⟨hc, h⟩ | ⟨hc, h⟩ | ⟨hc, h⟩ <;> rw [h]
  · exact Ctl.mayFollow_failed fun hc => by rw [hc] at hr; cases hr
  all_goals rw [hc]; rfl

/-- Every row but that of `Reset` goes on in the order of the source's states, or fails the session. -/
theorem State.Row.mayFollow {s t : State} {e : Event} (h : s.Row e t) (he : e ≠ .reset) :
    s.ctl.sourceState.mayFollow t.ctl.sourceState = true := by
  cases h with
  | reset => exact absurd rfl he
  | sendReset hc | sendIdentify hc _ | sendRegister hc _ _ | sendPoll hc =>
    rw [hc]
    exact State.mayFollow_issue rfl nofun
  | startIgnored _ | settleTick _ _ | backoffTick _ _ | tickIgnored _ _ | byteKept _ _ _ _ _ | emptyBacksOff _ _ _ =>
    exact SourceState.mayFollow_self _
  | ackReset hc | telemetryReceived hc _ | telemetryShort hc _ | serialMissing hc _ _ => rw [hc]; rfl
  | ackRequest hc => rcases hc with ⟨hc, rfl⟩ | ⟨hc, rfl⟩ | ⟨hc, rfl⟩ <;> rw [hc] <;> rfl
  | shortWrite hw _ | writeFails hw =>
    exact Ctl.mayFollow_failed fun hc => by rw [hc] at hw; cases hw
  | readFails hr _ => exact Ctl.mayFollow_failed fun hc => by rw [hc] at hr; cases hr
  | byteTerminates hr _ _ _ | byteFills hr _ _ _ _ | emptyGivesUp hr _ _ => exact State.mayFollow_readDone rfl hr

/-- Settles O56: the rows go through the source's states in order. -/
theorem sourceStatesFollowTheirOrder : Obligations.SourceStatesFollowTheirOrder :=
  fun _ _ _ _ hi hs he => (State.row_of_step hi hs).mayFollow he

/-! ### The derived flags and STATUS -/

theorem State.Legal.failCode_cases {s : State} (h : s.Legal) (hc : s.ctl = .failed) :
    s.failCode = 2 ∨ s.failCode = 3 := by
  have hcodes : ∀ row ∈ failureTable, row.2.2 = 2 ∨ row.2.2 = 3 := by decide
  exact hcodes _ (h.record hc)

/-- Settles O42: the flags by their cases on `ctl`, the codes by Table T12. -/
theorem derivedFlagsFollowCtl : Obligations.DerivedFlagsFollowCtl := by
  intro s
  refine ⟨?_, ?_, fun hc => if_pos hc, fun hc => if_neg hc, fun h hc => ?_, rfl⟩
  · cases hc : s.ctl <;> simp [State.busy, hc]
  · cases hc : s.ctl <;> simp [State.done, hc]
  · rw [State.resultCode, if_pos hc]
    exact h.failCode_cases hc

end Sys2Proof.Machine
end

section
/-! StatusPacksTableT6: STATUS is a union of fields at places that do not overlap (R37). -/

namespace Sys2Proof.Machine

/-- A value at a place of a STATUS word, the other bits 0. -/
def statusField {w : Nat} (x : BitVec w) (place : Nat) : BitVec 32 := x.setWidth 32 <<< place

/-- STATUS is its eight fields, each at its place in Table T6. -/
theorem State.status_eq_fields (s : State) :
    s.status = statusField s.ctl.code 0 ||| statusField (BitVec.ofBool s.busy) 4
      ||| statusField (BitVec.ofBool s.done) 5 ||| statusField s.resultCode 6 ||| statusField s.failReason.code 8
      ||| statusField s.failState.code 11 ||| statusField (BitVec.ofBool s.rxTerm) 15
      ||| statusField s.rxCount 16 := by
  simp only [State.status, statusField, BitVec.shiftLeft_zero]

theorem statusField_getLsbD {w : Nat} (x : BitVec w) (place i : Nat) (hi : i < 32) :
    (statusField x place).getLsbD i = (decide (place ≤ i) && x.getLsbD (i - place)) := by
  by_cases h : place ≤ i
  · simp [statusField, hi, h, Nat.not_lt.mpr h]
  · simp [statusField, h, Nat.lt_of_not_le h]

/-- A field is read back from its place. -/
theorem extractLsb'_statusField {w : Nat} (x : BitVec w) {place : Nat} (h : place + w ≤ 32) :
    (statusField x place).extractLsb' place w = x := by
  ext i hi
  rw [BitVec.getElem_extractLsb', statusField_getLsbD x place _ (by omega)]
  simp [BitVec.getLsbD_eq_getElem hi]

/-- A field is not seen at places it does not cover. -/
theorem extractLsb'_statusField_other {w : Nat} (x : BitVec w) {place start len : Nat} (hlen : start + len ≤ 32)
    (h : place + w ≤ start ∨ start + len ≤ place) : (statusField x place).extractLsb' start len = 0#len := by
  ext i hi
  rw [BitVec.getElem_extractLsb', statusField_getLsbD x place _ (by omega), BitVec.getElem_zero]
  rcases h with h | h
  · rw [BitVec.getLsbD_of_ge x _ (by omega), Bool.and_false]
  · rw [decide_eq_false (by omega), Bool.false_and]

/-- A one-bit field read as a bit. -/
theorem getLsbD_eq_of_extractLsb' {x : BitVec 32} {i : Nat} {b : Bool}
    (h : x.extractLsb' i 1 = BitVec.ofBool b) : x.getLsbD i = b := by
  have h0 := congrArg (·.getLsbD 0) h
  simpa using h0

/-- Settles O43: each field is read back from its place, where no other field stands. -/
theorem statusPacksTableT6 : Obligations.StatusPacksTableT6 := by
  refine ⟨fun s => ?_, fun s t hctl hcode hreason hstate hterm hcount => ?_, by decide⟩
  · rw [s.status_eq_fields]
    refine ⟨?_, getLsbD_eq_of_extractLsb' ?_, getLsbD_eq_of_extractLsb' ?_, ?_, ?_, ?_,
      getLsbD_eq_of_extractLsb' ?_, ?_, ?_⟩ <;>
      simp (disch := omega) [BitVec.extractLsb'_or, extractLsb'_statusField, extractLsb'_statusField_other]
  · simp only [State.status, State.busy, State.done, State.resultCode, hctl, hcode, hreason, hstate, hterm, hcount]

end Sys2Proof.Machine
end

section
/-! BuffersAreWrittenByTheirOwnersOnly: the received byte's row is the only one that writes `rx_buf`, the rows that issue
a command's write are the only ones that write `tx_buf` (R61, R116, R119). -/

namespace Sys2Proof.Machine

/-! ### A byte of a buffer that is not written -/

theorem State.rxByte_congr {s t : State} (hbuf : t.rxBuf = s.rxBuf) (hepoch : t.epoch = s.epoch) (a : Nat) :
    t.rxByte a = s.rxByte a := by
  rw [State.rxByte, State.rxByte, hbuf, hepoch]

theorem State.txByte_congr {s t : State} (hbuf : t.txBuf = s.txBuf) (hepoch : t.epoch = s.epoch) (a : Nat) :
    t.txByte a = s.txByte a := by
  rw [State.txByte, State.txByte, hbuf, hepoch]

@[simp] theorem State.takeByte_txBuf (s : State) (b : Byte) : (s.takeByte b).txBuf = s.txBuf := rfl
@[simp] theorem State.takeByte_epoch (s : State) (b : Byte) : (s.takeByte b).epoch = s.epoch := rfl

@[simp] theorem State.readDone_txBuf (s : State) : s.readDone.txBuf = s.txBuf := by
  obtain ⟨_, _, _, _, _, _, h⟩ := s.readDone_frame
  rw [h]

theorem State.Row.epoch_eq {s t : State} {e : Event} (h : s.Row e t) (he : e ≠ .reset) : t.epoch = s.epoch := by
  cases h with
  | reset => exact absurd rfl he
  | _ => simp

/-! ### `rx_buf` -/

/-- The byte taken is all that a row but that of `Reset` writes of `rx_buf` (R144). -/
theorem State.Row.rxBuf_cases {s t : State} {e : Event} (h : s.Row e t) (he : e ≠ .reset) :
    t.rxBuf = s.rxBuf ∨ ∃ b, e = .rxByte b ∧ t.rxBuf = (s.takeByte b).rxBuf := by
  cases h with
  | reset => exact absurd rfl he
  | byteKept | byteTerminates | byteFills => exact .inr ⟨_, rfl, by simp⟩
  | _ => exact .inl (by simp)

theorem State.Row.index_of_rxByte_ne {s t : State} {e : Event} {a : Nat} (h : s.Row e t) (he : e ≠ .reset)
    (ha : t.rxByte a ≠ s.rxByte a) : (∃ b, e = .rxByte b) ∧ a = s.rxCount.toNat := by
  rcases h.rxBuf_cases he with hbuf | ⟨b, hb, hbuf⟩
  · exact absurd (State.rxByte_congr hbuf (h.epoch_eq he) a) ha
  · refine ⟨⟨b, hb⟩, ?_⟩
    have hread : t.rxByte a = (s.takeByte b).rxByte a := State.rxByte_congr hbuf (h.epoch_eq he) a
    rw [hread, State.takeByte_rxByte] at ha
    by_contra hne
    exact ha (if_neg (Ne.symm hne))

/-! ### `tx_buf` -/

/-- A row but that of `Reset` leaves `tx_buf` alone, or is one of the four that issue a command's write. -/
theorem State.Row.txBuf_cases {s t : State} {e : Event} (h : s.Row e t) (he : e ≠ .reset) :
    t.txBuf = s.txBuf ∨ s.ctl.writing = false ∧ ∃ dest settle control function payload next,
      next.writing = true
        ∧ t = State.issue { s with destAddr := dest, settleCnt := settle } control function payload next := by
  cases h with
  | reset => exact absurd rfl he
  | sendReset hc | sendIdentify hc _ | sendRegister hc _ _ | sendPoll hc =>
    exact .inr ⟨by rw [hc]; rfl, _, _, _, _, _, _, rfl, rfl⟩
  | _ => exact .inl (by simp)

/-- A write that changes a byte of `tx_buf` is not refused: the byte is in the frame traced, whose write is then
outstanding (R116, R117, R119). -/
theorem State.issue_of_txByte_ne {s t : State} {control function : Byte} {payload : List Byte} {next : Ctl} {a : Nat}
    (ht : t = s.issue control function payload next) (hn : next.writing = true) (ha : t.txByte a ≠ s.txByte a) :
    t.req = .write t.txFrame ∧ t.trace = s.trace ++ [.tx t.txFrame] ∧ a < t.txLen.toNat := by
  rcases Nat.lt_or_ge 240 payload.length with hlong | hfits
  · rw [ht, State.issue_refused hlong] at ha
    exact absurd rfl ha
  · have hissue := ht.trans (State.issue_ok hfits)
    have hframe : t.txFrame = frameBytes 0x01 s.destAddr control function payload := ht ▸ State.issue_txFrame hfits
    refine ⟨if_pos (by rw [hissue]; exact hn), by rw [hframe, hissue], ?_⟩
    have hlen : t.txLen.toNat = 11 + payload.length := by
      rw [hissue, BitVec.toNat_ofNat]
      omega
    have hread : t.txByte a =
        (s.storeFrame (frameBytes 0x01 s.destAddr control function payload)).txByte a :=
      State.txByte_congr (by rw [hissue, State.storeFrame_txBuf]) (by rw [hissue, State.storeFrame_epoch]) a
    rw [hread, State.storeFrame_txByte] at ha
    by_contra hge
    exact ha (by rw [List.getElem?_eq_none (by rw [frameBytes_length]; omega), Option.getD_none])

/-- Settles O54: the rows that write a buffer, and the byte each of them writes. -/
theorem buffersAreWrittenByTheirOwnersOnly : Obligations.BuffersAreWrittenByTheirOwnersOnly := by
  intro s t e rest a hi hs he
  have hrow := State.row_of_step hi hs
  refine ⟨hrow.index_of_rxByte_ne he, fun ha => ?_⟩
  rcases hrow.txBuf_cases he with hbuf | ⟨hw, dest, settle, control, function, payload, next, hn, ht⟩
  · exact absurd (State.txByte_congr hbuf (hrow.epoch_eq he) a) ha
  · have hissued := State.issue_of_txByte_ne ht hn ha
    exact ⟨hw, hissued⟩

end Sys2Proof.Machine
end

section
/-! Table T8 as the decoder reads it: which words decode to each command, for the written-out words and for every pair of
bytes (R84, R85, R87). -/

namespace Sys2Proof

/-- A pair of bytes and its big-endian word say the same (R65). -/
theorem beWord_eq_beWord_iff {hi lo hi' lo' : Byte} : beWord hi lo = beWord hi' lo' ↔ hi = hi' ∧ lo = lo' := by
  constructor
  · intro h
    have hhi := congrArg hiByte h
    have hlo := congrArg loByte h
    rw [hiByte_beWord, hiByte_beWord] at hhi
    rw [loByte_beWord, loByte_beWord] at hlo
    exact ⟨hhi, hlo⟩
  · rintro ⟨rfl, rfl⟩
    rfl

/-- The command decoder compares the whole 16 bits with the opcode column of Table T8 (R85). -/
theorem decodeCommand_eq_ok_iff {control function : Byte} {i : Instr} :
    decodeCommand control function = .ok i ↔ beWord control function = i.opcode := by
  rw [Instr.opcode, beWord_eq_beWord_iff]
  constructor
  · exact decodeCommand_eq_ok
  · rintro ⟨rfl, rfl⟩
    exact decodeCommand_encoded i

/-- `decode` hands the first two bytes to the command decoder and the rest back. -/
theorem decode_cons_cons_eq_ok_iff {control function : Byte} {rest more : List Byte} {i : Instr} :
    decode (control :: function :: rest) = .ok (i, more) ↔ more = rest ∧ decodeCommand control function = .ok i := by
  rw [decode]
  cases decodeCommand control function with
  | error e => simp
  | ok j => simp [and_comm, eq_comm]

/-- Settles O4: the bytes decode exactly when their word is the command's opcode, and words are equal when their values
are. -/
theorem decodeMatchesTheFullOpcode : Obligations.DecodeMatchesTheFullOpcode := by
  intro control function rest i more
  rw [decode_cons_cons_eq_ok_iff, decodeCommand_eq_ok_iff, ← BitVec.toNat_inj, beWord_toNat]
  cases i <;> rfl

/-- Settles O3: each word is the encoding of its command, which the round trip of the command reads back. -/
theorem tableT8WordsDecode : Obligations.TableT8WordsDecode :=
  have ⟨resetBytes, resetWord⟩ := Laws.CommandRoundTrip.reset
  have ⟨identifyBytes, identifyWord⟩ := Laws.CommandRoundTrip.identify
  have ⟨registerBytes, registerWord⟩ := Laws.CommandRoundTrip.register
  have ⟨pollBytes, pollWord⟩ := Laws.CommandRoundTrip.poll
  ⟨resetBytes [], identifyBytes [], registerBytes [], pollBytes [], resetWord, identifyWord, registerWord, pollWord⟩

end Sys2Proof
end

section
/-! CHECKSUM as a number: the byte sum's negative modulo 65536, and what follows from that closed form (R111, R113). -/

namespace Sys2Proof

/-- Settles O7: inverting and incrementing negates the accumulated sum. -/
theorem checksumClosedForm : Obligations.ChecksumClosedForm := by
  intro bytes
  have hneg : csum bytes = -bytes.foldl csumAdd 0 := (BitVec.neg_eq_not_add _).symm
  rw [hneg, BitVec.toNat_neg, foldl_csumAdd_toNat]
  simp

theorem csum_eq_zero_iff (bytes : List Byte) : csum bytes = 0x0000 ↔ (bytes.map BitVec.toNat).sum % 65536 = 0 := by
  have hclosed := checksumClosedForm bytes
  rw [← BitVec.toNat_inj]
  show (csum bytes).toNat = 0 ↔ _
  omega

/-- The checksum sees nothing of the bytes but their sum. -/
theorem csum_congr_sum {a b : List Byte} (h : (a.map BitVec.toNat).sum = (b.map BitVec.toNat).sum) :
    csum a = csum b := by
  apply BitVec.eq_of_toNat_eq
  rw [checksumClosedForm a, checksumClosedForm b, h]

theorem byteSum_le (bytes : List Byte) : (bytes.map BitVec.toNat).sum ≤ bytes.length * 255 := by
  have hbyte : ∀ n ∈ bytes.map BitVec.toNat, n ≤ 255 := by
    intro n hn
    obtain ⟨b, -, rfl⟩ := List.mem_map.mp hn
    exact Nat.le_of_lt_succ b.isLt
  simpa using List.sum_le_card_nsmul _ _ hbyte

/-- Settles O8: each clause is the closed form, with every byte at most 255. -/
theorem checksumCornerCases : Obligations.ChecksumCornerCases := by
  refine ⟨by decide, by decide, csum_eq_zero_iff, fun bytes hwrap => ?_, ?_, fun a b hperm => ?_⟩
  · have hsum := byteSum_le bytes
    omega
  · apply BitVec.eq_of_toNat_eq
    rw [checksumClosedForm, List.map_replicate, List.sum_replicate]
    rfl
  · exact csum_congr_sum (hperm.map _).sum_eq

/-- The checksum's two bytes, weighed as one big-endian word, cancel the sum they are computed from (R115). -/
theorem csum_cancels_byteSum (bytes : List Byte) :
    ((bytes.map BitVec.toNat).sum + (hiByte (csum bytes)).toNat * 256 + (loByte (csum bytes)).toNat) % 65536 = 0 := by
  have hword : (hiByte (csum bytes)).toNat * 256 + (loByte (csum bytes)).toNat = (csum bytes).toNat := by
    rw [← beWord_toNat, beWord_hiByte_loByte]
  have hclosed := checksumClosedForm bytes
  omega

end Sys2Proof
end

section
/-! Reading a frame back out of `tx_buf`: the fields of Table T7, each at its place, from the frame in the buffer. -/

namespace Sys2Proof.Machine

/-! ### Parts of the frame in the buffer -/

@[simp] theorem State.txFrame_length (s : State) : s.txFrame.length = s.txLen.toNat := by
  simp [State.txFrame, State.txBytes]

/-- A run of bytes below `tx_len` is a part of the frame. -/
theorem State.txBytes_eq_of_le {s : State} {index n : Nat} (h : index + n ≤ s.txLen.toNat) :
    s.txBytes index n = (s.txFrame.drop index).take n := by
  apply List.ext_getElem
  · simp [State.txBytes]
    omega
  · intro i _ _
    simp [State.txFrame, State.txBytes]

theorem State.txBytes_four (s : State) (index : Nat) :
    s.txBytes index 4 = [s.txByte index, s.txByte (index + 1), s.txByte (index + 2), s.txByte (index + 3)] := rfl

/-! ### The fields of Table T7 -/

section
variable {t : State} {src dest control function : Byte} {payload : List Byte}

theorem State.txLen_of_txFrame (h : t.txFrame = frameBytes src dest control function payload) :
    t.txLen.toNat = 11 + payload.length := by
  rw [← State.txFrame_length, h, frameBytes_length]

theorem State.header_of_txFrame (h : t.txFrame = frameBytes src dest control function payload) :
    t.txBytes 0 7 = [0xA5, 0xA5, src, dest, control, function, BitVec.ofNat 8 payload.length] := by
  have hlen := State.txLen_of_txFrame h
  rw [State.txBytes_eq_of_le (by omega), h]
  rfl

/-- Byte 6 is the payload's length, as a number where the length fits a byte (R82). -/
theorem State.lengthByte_of_txFrame (h : t.txFrame = frameBytes src dest control function payload)
    (hfits : payload.length ≤ 240) : (t.txByte 6).toNat = payload.length := by
  have hbyte : t.txByte 6 = BitVec.ofNat 8 payload.length :=
    Option.some.inj (congrArg (·[6]?) (State.header_of_txFrame h))
  rw [hbyte, BitVec.toNat_ofNat]
  omega

theorem State.covered_of_txFrame (h : t.txFrame = frameBytes src dest control function payload) :
    t.txBytes 0 (7 + payload.length) = coveredBytes src dest control function payload := by
  have hlen := State.txLen_of_txFrame h
  rw [State.txBytes_eq_of_le (by omega), h, List.drop_zero, frameBytes]
  exact List.take_left' (coveredBytes_length ..)

theorem State.payload_of_txFrame (h : t.txFrame = frameBytes src dest control function payload) :
    t.txBytes 7 payload.length = payload := by
  have hlen := State.txLen_of_txFrame h
  rw [State.txBytes_eq_of_le (by omega), h]
  simp [frameBytes, coveredBytes]

/-- The four bytes behind the payload: the checksum, high byte first, and the terminator (R112). -/
theorem State.trailer_of_txFrame (h : t.txFrame = frameBytes src dest control function payload) :
    t.txByte (7 + payload.length) = hiByte (csum (t.txBytes 0 (7 + payload.length)))
      ∧ t.txByte (8 + payload.length) = loByte (csum (t.txBytes 0 (7 + payload.length)))
      ∧ t.txByte (9 + payload.length) = 0x0A ∧ t.txByte (10 + payload.length) = 0x0D := by
  have hlen := State.txLen_of_txFrame h
  have hfour : t.txBytes (7 + payload.length) 4 =
      [hiByte (csum (t.txBytes 0 (7 + payload.length))), loByte (csum (t.txBytes 0 (7 + payload.length))),
        0x0A, 0x0D] := by
    rw [State.covered_of_txFrame h, State.txBytes_eq_of_le (by omega), h, frameBytes,
      List.drop_left' (coveredBytes_length ..)]
    rfl
  have hplaces : 8 + payload.length = 7 + payload.length + 1 ∧ 9 + payload.length = 7 + payload.length + 2
      ∧ 10 + payload.length = 7 + payload.length + 3 := by omega
  obtain ⟨h8, h9, h10⟩ := hplaces
  rw [State.txBytes_four] at hfour
  simpa only [h8, h9, h10, List.cons.injEq, and_true] using hfour

end

end Sys2Proof.Machine
end

section
/-! What BUILD_REQUEST and the step that issues a write leave behind, in the terms of the frame in the buffer (R116,
R117, R119). -/

namespace Sys2Proof.Machine

/-! ### BUILD_REQUEST -/

/-- The state BUILD_REQUEST leaves for a legal payload holds the frame of Table T7. -/
theorem txFrame_of_buildRequest_ok {control function : Byte} {payload : List Byte} {s t : State}
    (h : buildRequest control function payload s = (.ok, t)) :
    payload.length ≤ 240 ∧ t.txFrame = frameBytes 0x01 s.destAddr control function payload := by
  rcases Nat.lt_or_ge 240 payload.length with hlong | hfits
  · rw [buildRequest_refused hlong] at h
    cases h
  · rw [buildRequest_ok hfits] at h
    cases h
    exact ⟨hfits, s.storeFrame_txFrame _ (by rw [frameBytes_length]; omega)⟩

/-- A stored frame leaves the bytes from its length on (R116). -/
theorem State.storeFrame_txByte_of_le (s : State) {bs : List Byte} {a : Nat} (h : bs.length ≤ a) :
    (s.storeFrame bs).txByte a = s.txByte a := by
  rw [State.storeFrame_txByte, List.getElem?_eq_none h, Option.getD_none]

/-- Settles O10: the frame BUILD_REQUEST stores, read back field by field. -/
theorem buildRequestWritesTheFrame : Obligations.BuildRequestWritesTheFrame := by
  intro control function payload s
  refine ⟨fun hfits => ?_, buildRequest_refused, ?_⟩
  · have hbuild := buildRequest_ok (control := control) (function := function) (s := s) hfits
    obtain ⟨-, hframe⟩ := txFrame_of_buildRequest_ok hbuild
    obtain ⟨hhi, hlo, hterm0, hterm1⟩ := State.trailer_of_txFrame hframe
    exact ⟨_, hbuild, rfl, State.txLen_of_txFrame hframe, State.header_of_txFrame hframe,
      State.lengthByte_of_txFrame hframe hfits, State.payload_of_txFrame hframe, hhi, hlo, hterm0, hterm1,
      fun a ha => s.storeFrame_txByte_of_le (by rwa [frameBytes_length])⟩
  · rintro rfl rfl rfl hdest
    have hbuild := buildRequest_ok (control := 0x30) (function := 0x40) (payload := []) (s := s) (by decide)
    obtain ⟨-, hframe⟩ := txFrame_of_buildRequest_ok hbuild
    refine ⟨_, hbuild, rfl, ?_⟩
    rw [hframe, hdest]
    decide

/-- Settles O9: the frame's checksum bytes are those of its covered bytes; RESET's frame is the counterexample to the
other readings. -/
theorem checksumWordCancelsTheByteSum : Obligations.ChecksumWordCancelsTheByteSum := by
  refine ⟨fun control function payload s t h => ?_, by decide, by decide⟩
  obtain ⟨-, hframe⟩ := txFrame_of_buildRequest_ok h
  obtain ⟨hhi, hlo, -, -⟩ := State.trailer_of_txFrame hframe
  rw [hhi, hlo]
  exact csum_cancels_byteSum _

/-! ### Issuing a write -/

/-- A write issued for a legal payload changes `ctl`, the frame and the trace, which records that frame (R119). -/
theorem State.issue_eq {s : State} {control function : Byte} {payload : List Byte} {next : Ctl}
    (h : payload.length ≤ 240) :
    s.issue control function payload next =
      { s with
        ctl := next
        txBuf := (s.issue control function payload next).txBuf
        txLen := BitVec.ofNat 9 (11 + payload.length)
        trace := s.trace ++ [.tx (s.issue control function payload next).txFrame] } := by
  rw [State.issue_txFrame h, State.issue_ok h]

theorem State.issue_req {s : State} {control function : Byte} {payload : List Byte} {next : Ctl}
    (h : payload.length ≤ 240) (hn : next.writing = true) :
    (s.issue control function payload next).req = .write (s.issue control function payload next).txFrame :=
  if_pos (by rw [State.issue_eq h]; exact hn)

/-- A write issued leaves the bytes of `tx_buf` from the frame's length on (R116). -/
theorem State.issue_txByte_of_le {s : State} {control function : Byte} {payload : List Byte} {next : Ctl} {a : Nat}
    (h : payload.length ≤ 240) (ha : 11 + payload.length ≤ a) :
    (s.issue control function payload next).txByte a = s.txByte a := by
  rw [← s.storeFrame_txByte_of_le (bs := frameBytes 0x01 s.destAddr control function payload)
    (by rwa [frameBytes_length])]
  exact State.txByte_congr (by rw [State.issue_ok h, State.storeFrame_txBuf]) (by simp) a

/-- A command with no operand writes no failure record. -/
@[simp] theorem State.issue_nil_failReason (s : State) (control function : Byte) (next : Ctl) :
    (s.issue control function [] next).failReason = s.failReason := by
  rw [State.issue_ok (by simp)]

theorem State.issue_nil_withInputs (s : State) (control function : Byte) (next : Ctl) (es : List Event) :
    (s.withInputs es).issue control function [] next = (s.issue control function [] next).withInputs es := by
  rw [State.issue_ok (by simp), State.issue_ok (by simp)]
  rfl

/-- Settles O11: the refusal of BUILD_REQUEST, and that the other three commands have no payload to refuse. -/
theorem oversizedPayloadIsNeverSent : Obligations.OversizedPayloadIsNeverSent := by
  refine ⟨fun control function payload next s hlong => ?_, fun i s t h ht => ?_⟩
  · rw [buildRequest_refused hlong, State.issue_refused hlong]
    exact ⟨rfl, fun _ => rfl, rfl, rfl, rfl, rfl, rfl⟩
  · cases i with
    | register => exact .inr rfl
    | reset | identify | poll =>
      cases h
      exact .inl (by simpa using ht)

end Sys2Proof.Machine
end

section
/-! The four commands from every state: each issues its own write, so its effect is that of `State.issue`
(R120..R123). -/

namespace Sys2Proof.Machine

/-- The whole effect of issuing the write of a command with no operand: an 11-byte frame. -/
theorem State.issue_nil_effect (s : State) (control function : Byte) {next : Ctl} (hn : next.writing = true) :
    ∃ t, s.issue control function [] next = t
      ∧ t = { s with ctl := next, txBuf := t.txBuf, txLen := 11, trace := s.trace ++ [.tx t.txFrame] }
      ∧ t.txFrame = frameBytes 0x01 s.destAddr control function []
      ∧ t.req = .write t.txFrame
      ∧ ∀ a, 11 ≤ a → t.txByte a = s.txByte a :=
  have hfits : ([] : List Byte).length ≤ 240 := by decide
  ⟨_, rfl, State.issue_eq hfits, State.issue_txFrame hfits, State.issue_req hfits hn,
    fun _ ha => State.issue_txByte_of_le hfits ha⟩

/-- Settles O12: RESET issues its write. -/
theorem resetCommandBuildsItsFrame : Obligations.ResetCommandBuildsItsFrame := by
  intro s
  obtain ⟨t, ht, heffect⟩ := s.issue_nil_effect 0x30 0x44 (next := .rstTx) rfl
  exact ⟨t, congrArg Host.Outcome.next ht, heffect⟩

/-- Settles O13: IDENTIFY issues its write with the settle delay cleared. -/
theorem identifyCommandBuildsItsFrame : Obligations.IdentifyCommandBuildsItsFrame := by
  intro s
  obtain ⟨t, ht, heffect⟩ := State.issue_nil_effect { s with settleCnt := 0 } 0x30 0x40 (next := .idTx) rfl
  exact ⟨t, congrArg Host.Outcome.next ht, heffect⟩

/-- Settles O19: POLL issues its write with the address assigned, so its frame is the same from every state. -/
theorem pollCommandBuildsItsFrame : Obligations.PollCommandBuildsItsFrame := by
  intro s
  have hbytes : frameBytes 0x01 0x01 0x31 0x42 [] =
      [0xA5, 0xA5, 0x01, 0x01, 0x31, 0x42, 0x00, 0xFE, 0x41, 0x0A, 0x0D] := by decide
  obtain ⟨t, ht, heq, hframe, hreq, htail⟩ :=
    State.issue_nil_effect { s with destAddr := 0x01 } 0x31 0x42 (next := .pollTx) rfl
  refine ⟨t, congrArg Host.Outcome.next ht, heq, hframe.trans hbytes, hreq, htail, fun hc rest hi => ?_⟩
  rw [step_of_inputs_cons hi, ← ht, ← State.issue_nil_withInputs]
  exact (State.Row.sendPoll (s := s.withInputs rest) hc).stepOn_eq

/-! ### REGISTER -/

theorem State.registerPayload_length (s : State) : s.registerPayload.length = (s.rxByte 6).toNat + 1 := by
  simp [State.registerPayload, State.serialNumber, State.rxBytes, State.serialLength]

/-- REGISTER's payload, with its two parts read back (R122). -/
theorem State.txBytes_of_registerPayload {s t : State} {src dest control function : Byte}
    (h : t.txFrame = frameBytes src dest control function s.registerPayload) :
    t.txBytes 7 (s.rxByte 6).toNat = s.rxBytes 7 (s.rxByte 6).toNat
      ∧ t.txByte (7 + (s.rxByte 6).toNat) = 0x01 := by
  have hpayload := State.payload_of_txFrame h
  rw [s.registerPayload_length, State.txBytes, List.range_succ, List.map_append] at hpayload
  obtain ⟨hserial, hassigned⟩ := List.append_inj' hpayload rfl
  exact ⟨hserial, List.head_eq_of_cons_eq hassigned⟩

theorem execRegister_of_serialInRange {s : State} (h : s.serialInRange = true) :
    exec .register s = .next (State.issue { s with settleCnt := 0 } 0x30 0x41 s.registerPayload .regTx) :=
  if_pos h

/-- Settles O16: REGISTER issues its write with the settle delay cleared; its payload is one byte longer than the serial
number. -/
theorem registerCommandBuildsItsFrame : Obligations.RegisterCommandBuildsItsFrame := by
  intro s hreceived hN
  have hlen := s.registerPayload_length
  have hfits : s.registerPayload.length ≤ 240 := by omega
  have hlenByte : BitVec.ofNat 8 s.registerPayload.length = s.rxByte 6 + 1 := by
    rw [hlen, BitVec.ofNat_add, BitVec.ofNat_toNat, BitVec.setWidth_eq]
    rfl
  have hframe := State.issue_txFrame (s := { s with settleCnt := 0 }) (control := 0x30) (function := 0x41)
    (next := .regTx) hfits
  have hheader := State.header_of_txFrame hframe
  obtain ⟨hserial, hassigned⟩ := State.txBytes_of_registerPayload hframe
  rw [hlenByte] at hheader
  refine ⟨_, execRegister_of_serialInRange (s.serialInRange_iff.mpr hreceived), ?_, ?_, hframe, hheader, hserial,
    hassigned, State.issue_req hfits rfl, fun a ha => State.issue_txByte_of_le hfits (by omega)⟩
  · rw [State.issue_txFrame hfits, State.issue_ok hfits]
  · rw [State.txLen_of_txFrame hframe]
    omega

end Sys2Proof.Machine
end

section
/-! EveryFrameSentIsACommand: only the four rows that issue a command's write trace a `TraceTx`, and in a legal state
each builds the frame Table T8 gives its command (R87, R119). -/

namespace Sys2Proof.Machine

@[simp] theorem State.takeByte_trace (s : State) (b : Byte) : (s.takeByte b).trace = s.trace := rfl

theorem State.acceptResponse_trace (s : State) : s.acceptResponse.trace = s.trace := by
  obtain ⟨_, _, h⟩ := s.acceptResponse_frame
  rw [h]

/-- A completed read adds its `TraceRx` record (R150). -/
@[simp] theorem State.readDone_trace (s : State) : s.readDone.trace = s.trace ++ [.rx s.lastResponse] := by
  rcases s.readDone_cases with ⟨-, h⟩ | ⟨-, h⟩ <;> rw [h]
  · rw [State.acceptResponse_trace, State.emit_trace]
  · rfl

/-- A `TraceTx` record of an issued write is its frame, the payload was not refused, and the write is outstanding. -/
theorem State.issue_of_traceTx {s : State} {control function : Byte} {payload frame : List Byte} {next : Ctl}
    (hn : next.writing = true) (h : (s.issue control function payload next).trace = s.trace ++ [.tx frame]) :
    payload.length ≤ 240 ∧ frame = frameBytes 0x01 s.destAddr control function payload
      ∧ (s.issue control function payload next).req = .write frame := by
  rcases Nat.lt_or_ge 240 payload.length with hlong | hfits
  · rw [State.issue_refused hlong] at h
    simp at h
  · have hreq := State.issue_req (s := s) (control := control) (function := function) hfits hn
    rw [State.issue_ok hfits] at h
    obtain rfl : frameBytes 0x01 s.destAddr control function payload = frame := by simpa using h
    exact ⟨hfits, rfl, by rw [hreq, State.issue_txFrame hfits]⟩

/-- The frames of the commands with no operand are those of Table T8. -/
theorem wellFormed_nil {i : Instr} (h : i ≠ .register) :
    Frame.wellFormed { dest := i.destAddr, cmd := i, payload := [] } = true := by
  cases i with
  | register => exact absurd rfl h
  | reset | identify | poll => rfl

/-- REGISTER's payload ends in the assignment byte, as Table T8 wants it. -/
theorem wellFormed_registerPayload {s : State} (h : s.registerPayload.length ≤ 240) :
    Frame.wellFormed { dest := 0x00, cmd := .register, payload := s.registerPayload } = true := by
  have hlast : s.registerPayload.getLast? = some Config.assignedAddr := by simp [State.registerPayload]
  simp [Frame.wellFormed, Frame.lengthOk, Frame.destOk, Frame.payloadOk, Instr.destAddr, h, hlast]

/-- A row that traces a `TraceTx` issues a command's write, and Table T8's destination makes its frame well formed. The
other rows keep the trace, empty it, or add a `TraceRx`. -/
theorem State.Row.command_of_traceTx {s t : State} {e : Event} {frame : List Byte} (h : s.Row e t)
    (hdest : s.ctl = .idle ∨ s.ctl = .reset ∨ s.ctl = .identified → s.destAddr = 0x00)
    (ht : t.trace = s.trace ++ [.tx frame]) :
    t.req = .write frame ∧ ∃ f : Frame, f.wellFormed = true ∧ frame = encodeFrame f := by
  cases h with
  | sendReset hc =>
    obtain ⟨-, hframe, hreq⟩ := State.issue_of_traceTx rfl ht
    rw [hdest (.inl hc)] at hframe
    exact ⟨hreq, _, wellFormed_nil (i := .reset) (by decide), hframe⟩
  | sendIdentify hc _ =>
    obtain ⟨-, hframe, hreq⟩ := State.issue_of_traceTx (s := { s with settleCnt := 0 }) rfl ht
    rw [hdest (.inr (.inl hc))] at hframe
    exact ⟨hreq, _, wellFormed_nil (i := .identify) (by decide), hframe⟩
  | sendRegister hc _ _ =>
    obtain ⟨hfits, hframe, hreq⟩ := State.issue_of_traceTx (s := { s with settleCnt := 0 }) rfl ht
    rw [hdest (.inr (.inr hc))] at hframe
    exact ⟨hreq, _, wellFormed_registerPayload hfits, hframe⟩
  | sendPoll _ =>
    obtain ⟨-, hframe, hreq⟩ := State.issue_of_traceTx (s := { s with destAddr := 0x01 }) rfl ht
    exact ⟨hreq, _, wellFormed_nil (i := .poll) (by decide), hframe⟩
  | _ => simp at ht

/-- In a legal state the address is unassigned until the poll (R24). -/
theorem State.Legal.destAddr_eq_zero {s : State} (h : s.Legal)
    (hc : s.ctl = .idle ∨ s.ctl = .reset ∨ s.ctl = .identified) : s.destAddr = 0x00 := by
  rw [h.dest]
  rcases hc with hc | hc | hc <;> simp [State.stage, hc, Ctl.addressAssigned]

/-- Settles O52: a step that traces a `TraceTx` follows one of the four rows that issue a command's write. -/
theorem everyFrameSentIsACommand : Obligations.EveryFrameSentIsACommand := by
  intro s t frame hlegal hs ht
  rcases step_eq_next_cases hs with rfl | ⟨e, rest, -, hrow⟩
  · simp at ht
  · exact hrow.command_of_traceTx hlegal.destAddr_eq_zero ht

end Sys2Proof.Machine
end

section
/-! The Response Reader's steps: an acknowledged request starts the read, a byte is stored and tested, an empty poll backs
off or gives up, a back-off counts down, and an error aborts the read (R141..R150). -/

namespace Sys2Proof.Machine

/-! ### Reading states -/

theorem Ctl.writing_of_reading {c : Ctl} (h : c.reading = true) : c.writing = false := by
  rcases c.reading_iff.mp h with rfl | rfl | rfl <;> rfl

theorem Ctl.settling_of_reading {c : Ctl} (h : c.reading = true) : c.settling = false := by
  rcases c.reading_iff.mp h with rfl | rfl | rfl <;> rfl

/-- A read that fails does so with the code of the poll step or with that of the others (Table T11). -/
theorem Ctl.failCode_of_reading {c : Ctl} (h : c.reading = true) : c.failCode = if c = .pollRx then 3 else 2 := by
  rcases c.reading_iff.mp h with rfl | rfl | rfl <;> rfl

/-- Outside a back-off a reading state asks for one byte (R43). -/
theorem State.req_eq_readByte {s : State} (hr : s.ctl.reading = true) (hb : s.backoffCnt = 0) : s.req = .readByte := by
  simp [State.req, Ctl.writing_of_reading hr, hr, hb]

/-- In a back-off nothing is outstanding (R43). -/
theorem State.req_eq_none {s : State} (hr : s.ctl.reading = true) (hb : 0 < s.backoffCnt) : s.req = .none := by
  simp [State.req, Ctl.writing_of_reading hr, Nat.ne_of_gt hb]

/-- No byte is asked for outside a read (R43). -/
theorem State.req_ne_readByte {s : State} (hr : s.ctl.reading = false) : s.req ≠ .readByte := by
  cases hw : s.ctl.writing <;> simp [State.req, hr, hw]

/-- The event of a row, coming next, is taken by that row. -/
theorem step_eq_of_row {s t : State} {e : Event} {rest : List Event} (hi : s.inputs = e :: rest)
    (h : (s.withInputs rest).Row e t) : step s = .next t := by
  rw [step_of_inputs_cons hi, h.stepOn_eq]

/-! ### Events that receive nothing -/

/-- Settles O29: the three rows that acknowledge a request differ in the reading state they enter only. -/
theorem acknowledgedRequestStartsTheRead : Obligations.AcknowledgedRequestStartsTheRead := by
  rintro s n rest hi rfl hc
  have started {next : Ctl} (hnext : (s.ctl = .idTx ∧ next = .idRx) ∨ (s.ctl = .regTx ∧ next = .regRx)
      ∨ (s.ctl = .pollTx ∧ next = .pollRx)) :
      step s = .next { (s.withInputs rest).startRead with ctl := next } :=
    step_eq_of_row hi (.ackRequest hnext)
  rcases hc with hc | hc | hc
  · exact ⟨_, started (.inl ⟨hc, rfl⟩), rfl, State.req_eq_readByte rfl rfl, by simp [hc]⟩
  · exact ⟨_, started (.inr (.inl ⟨hc, rfl⟩)), rfl, State.req_eq_readByte rfl rfl, by simp [hc]⟩
  · exact ⟨_, started (.inr (.inr ⟨hc, rfl⟩)), rfl, State.req_eq_readByte rfl rfl, by simp [hc]⟩

/-- Settles O35: the two rows of an empty poll. -/
theorem emptyPollBacksOffOrGivesUp : Obligations.EmptyPollBacksOffOrGivesUp := by
  intro s rest hr hb hi
  refine ⟨fun hkept => ⟨_, step_eq_of_row hi (.emptyBacksOff hr hb hkept), rfl,
      fun hticks => State.req_eq_none hr hticks⟩,
    fun hspent => ⟨_, step_eq_of_row hi (.emptyGivesUp hr hb hspent), rfl, ?_⟩⟩
  exact ⟨State.readDone_rxTerm _, State.readDone_rxCount _, State.readDone_not_reading hr, State.readDone_trace _⟩

/-- Settles O36: the `Tick` rows of a reading state, one in a back-off and one outside it. -/
theorem backoffTickCountsDown : Obligations.BackoffTickCountsDown := by
  intro s rest hr hi
  refine ⟨fun hb => ⟨_, step_eq_of_row hi (.backoffTick hr hb), rfl, fun h1 => ?_, fun h1 => ?_⟩, fun hb => ?_⟩
  · exact State.req_eq_readByte hr (by simp [h1])
  · exact State.req_eq_none hr (Nat.sub_pos_of_lt h1)
  · refine step_eq_of_row hi (.tickIgnored (fun hs => ?_) fun _ => hb)
    rw [State.withInputs_ctl, Ctl.settling_of_reading hr] at hs
    cases hs

/-- Settles O37: the row of a read error raises the failure in the reading state. -/
theorem readErrorAbortsTheRead : Obligations.ReadErrorAbortsTheRead := by
  intro s rest hr hb hi
  rw [step_eq_of_row hi (.readFails hr hb), ← Ctl.failCode_of_reading hr]
  rfl

/-! ### A received byte -/

/-- The terminator test on a byte just taken asks for the pair it completes (R145). -/
theorem State.takeByte_terminated_iff {s : State} {b : Byte} (hroom : s.rxCount.toNat < 256) :
    (s.takeByte b).terminated = true ↔
      1 ≤ s.rxCount.toNat ∧ s.rxByte (s.rxCount.toNat - 1) = 0x0A ∧ b = 0x0D := by
  simp only [State.terminated, State.takeByte_rxCount_toNat s b hroom, State.takeByte_rxByte, Bool.and_eq_true,
    decide_eq_true_eq, beq_iff_eq, Nat.add_sub_cancel, if_true]
  have hprev : s.rxCount.toNat + 1 - 2 = s.rxCount.toNat - 1 := rfl
  constructor
  · rintro ⟨⟨h2, hlast⟩, hfirst⟩
    rw [hprev, if_neg (by omega)] at hfirst
    exact ⟨by omega, hfirst, hlast⟩
  · rintro ⟨h1, hfirst, hlast⟩
    rw [hprev, if_neg (by omega)]
    exact ⟨⟨by omega, hlast⟩, hfirst⟩

/-- The terminator and the cap end the read alike, but for `rx_term` (R145, R146). -/
theorem State.afterByte_of_end {s : State} (h : s.terminated = true ∨ s.rxCount.toNat = 256) :
    s.afterByte = State.readDone { s with rxTerm := s.terminated || s.rxTerm } := by
  rcases s.afterByte_cases with ⟨h1, ha⟩ | ⟨h1, h2, ha⟩ | ⟨h1, h2, -⟩
  · rw [ha, h1, Bool.true_or]
  · rw [ha, h1, Bool.false_or]
  · rw [h1] at h
    exact absurd h (by simp [h2])

/-- What follows a stored byte leaves everything but `rx_term` and what the end of a read writes. -/
theorem State.afterByte_frame (s : State) :
    ∃ ctl settleCnt trace failCode failReason failState,
      s.afterByte = { s with
        ctl := ctl, settleCnt := settleCnt, trace := trace, rxTerm := s.terminated || s.rxTerm
        failCode := failCode, failReason := failReason, failState := failState } := by
  by_cases h : s.terminated = true ∨ s.rxCount.toNat = 256
  · rw [State.afterByte_of_end h]
    exact State.readDone_frame _
  · obtain ⟨h1, h2⟩ := not_or.mp h
    rw [Bool.not_eq_true] at h1
    rw [State.afterByte_of_go_on h1 h2, h1, Bool.false_or]
    exact ⟨_, _, _, _, _, _, rfl⟩

section
variable (s : State)

@[simp] theorem State.afterByte_rxBuf : s.afterByte.rxBuf = s.rxBuf := by
  obtain ⟨_, _, _, _, _, _, h⟩ := s.afterByte_frame
  rw [h]

@[simp] theorem State.afterByte_rxCount : s.afterByte.rxCount = s.rxCount := by
  obtain ⟨_, _, _, _, _, _, h⟩ := s.afterByte_frame
  rw [h]

@[simp] theorem State.afterByte_epoch : s.afterByte.epoch = s.epoch := by
  obtain ⟨_, _, _, _, _, _, h⟩ := s.afterByte_frame
  rw [h]

@[simp] theorem State.afterByte_rxTerm : s.afterByte.rxTerm = (s.terminated || s.rxTerm) := by
  obtain ⟨_, _, _, _, _, _, h⟩ := s.afterByte_frame
  rw [h]

end

/-- A byte received with room for it is stored, counted and tested (R144). -/
theorem step_rxByte {s : State} {b : Byte} {rest : List Event} (hr : s.ctl.reading = true) (hb : s.backoffCnt = 0)
    (hroom : s.rxCount.toNat < 256) (hi : s.inputs = .rxByte b :: rest) :
    step s = .next ((s.withInputs rest).takeByte b).afterByte :=
  step_eq_of_row hi (State.row_of_onRxByte hr hb (onRxByte_of_room hroom))

/-- A response shorter than its header is recorded as the failure of its read (R183, R195, R201, R222). -/
theorem State.readDone_failure {s : State} (hr : s.ctl.reading = true) (h : s.rxCount.toNat < 7) :
    s.readDone.ctl = .failed ∧ s.readDone.failReason = .shortResponse ∧ s.readDone.failState = s.ctl
      ∧ s.readDone.failCode = (if s.ctl = .pollRx then 3 else 2) ∧ s.readDone.settleCnt = s.settleCnt := by
  rw [State.readDone_of_short h, ← Ctl.failCode_of_reading hr]
  exact ⟨rfl, rfl, rfl, rfl, rfl⟩

/-- A response with its header is accepted, each read's into the state that follows it (R181, R193, R199). -/
theorem State.readDone_accepted {s : State} (h : 7 ≤ s.rxCount.toNat) :
    s.readDone.failReason = s.failReason ∧ s.readDone.failCode = s.failCode ∧ s.readDone.failState = s.failState
      ∧ (s.ctl = .idRx → s.readDone.ctl = .identified ∧ s.readDone.settleCnt = s.params.settleTicks)
      ∧ (s.ctl = .regRx → s.readDone.ctl = .registered ∧ s.readDone.settleCnt = s.settleCnt)
      ∧ (s.ctl = .pollRx → s.readDone.ctl = .polled ∧ s.readDone.settleCnt = s.settleCnt) := by
  rw [State.readDone_of_header h]
  obtain ⟨_, _, hframe⟩ := (s.emit (.rx s.lastResponse)).acceptResponse_frame
  refine ⟨by rw [hframe]; rfl, by rw [hframe]; rfl, by rw [hframe]; rfl, ?_, ?_, ?_⟩ <;> intro hc <;>
    simp [State.acceptResponse, hc]

/-- What the response is read from decides it. -/
theorem State.lastResponse_congr {s t : State} (hbuf : t.rxBuf = s.rxBuf) (hepoch : t.epoch = s.epoch)
    (hcount : t.rxCount = s.rxCount) : t.lastResponse = s.lastResponse := by
  simp only [State.lastResponse, State.rxBytes, State.rxByte, hbuf, hepoch, hcount]

@[simp] theorem State.readDone_lastResponse (s : State) : s.readDone.lastResponse = s.lastResponse :=
  State.lastResponse_congr s.readDone_rxBuf s.readDone_epoch s.readDone_rxCount

/-- Settles O33: the byte is taken, the terminator test asks for the pair, and an ended read is checked by its count. -/
theorem receivedByteIsStoredAndTested : Obligations.ReceivedByteIsStoredAndTested := by
  intro s b rest hr hb hroom hi
  have hpair : ((s.withInputs rest).takeByte b).terminated = true ↔ _ := State.takeByte_terminated_iff hroom
  have hcount : ((s.withInputs rest).takeByte b).rxCount.toNat = s.rxCount.toNat + 1 :=
    State.takeByte_rxCount_toNat _ b hroom
  have hbyte (a : Nat) : ((s.withInputs rest).takeByte b).afterByte.rxByte a =
      if s.rxCount.toNat = a then b else s.rxByte a :=
    (State.rxByte_congr (State.afterByte_rxBuf _) (State.afterByte_epoch _) a).trans (State.takeByte_rxByte _ b a)
  refine ⟨_, step_rxByte hr hb hroom hi, ?_, ?_, ?_, fun a ha => ?_, fun hp => ?_, fun hp => ?_, fun hp hmore => ?_,
    fun hp => ?_⟩
  · obtain ⟨_, _, _, _, _, _, hframe⟩ := ((s.withInputs rest).takeByte b).afterByte_frame
    rw [hframe]
    rfl
  · rw [State.afterByte_rxCount, hcount]
  · rw [hbyte, if_pos rfl]
  · rw [hbyte, if_neg (Ne.symm ha)]
  · rw [State.afterByte_rxTerm, hpair.mpr hp, Bool.true_or]
  · rw [State.afterByte_rxTerm, Bool.eq_false_iff.mpr (mt hpair.mp hp), Bool.false_or]
    rfl
  · rw [State.afterByte_of_go_on (Bool.eq_false_iff.mpr (mt hpair.mp hp)) (by omega)]
    exact ⟨rfl, rfl, rfl, rfl, rfl, rfl, State.req_eq_readByte hr hb⟩
  · rw [State.afterByte_of_end (hp.imp hpair.mpr hcount.trans), State.readDone_trace, State.readDone_lastResponse]
    refine ⟨rfl, ?_⟩
    split
    next hshort => exact State.readDone_failure hr (hcount.trans_lt hshort)
    next hlong => exact State.readDone_accepted (hcount.symm ▸ Nat.not_lt.mp hlong)

end Sys2Proof.Machine
end

section
/-! ReadEndsAtTheFirstTerminator: along the events of a read the response is the part of the stream received so far, which
ends in the pair `0A 0D` only when the stream is received whole (R144, R145, R152). -/

namespace Sys2Proof.Machine

/-! ### The response as a list -/

@[simp] theorem State.lastResponse_length (s : State) : s.lastResponse.length = s.rxCount.toNat := by
  simp [State.lastResponse, State.rxBytes]

theorem State.lastResponse_getElem? (s : State) (i : Nat) :
    s.lastResponse[i]? = if i < s.rxCount.toNat then some (s.rxByte i) else none := by
  by_cases h : i < s.rxCount.toNat <;> simp [State.lastResponse, State.rxBytes, h]

theorem State.pairAt_iff (s : State) (i : Nat) :
    s.PairAt i ↔ s.lastResponse[i]? = some 0x0A ∧ s.lastResponse[i + 1]? = some 0x0D := by
  rw [State.lastResponse_getElem?, State.lastResponse_getElem?]
  constructor
  · rintro ⟨hi, h0, h1⟩
    rw [if_pos (by omega), if_pos hi, h0, h1]
    exact ⟨rfl, rfl⟩
  · rintro ⟨h0, h1⟩
    have hi : i + 1 < s.rxCount.toNat := by
      by_contra hi
      rw [if_neg hi] at h1
      cases h1
    rw [if_pos (by omega)] at h0
    rw [if_pos hi] at h1
    exact ⟨hi, Option.some.inj h0, Option.some.inj h1⟩

/-- Of the beginnings of a stream that ends in its first pair, the terminator test passes on the whole stream only
(R145). -/
theorem EndsAtFirstPair.terminated_iff {stream more : List Byte} {s : State} (h : EndsAtFirstPair stream)
    (hs : s.lastResponse ++ more = stream) : s.terminated = true ↔ more = [] := by
  rw [State.terminated_iff]
  constructor
  · rintro ⟨i, hpair, hi⟩
    obtain ⟨h0, h1⟩ := (s.pairAt_iff i).mp hpair
    by_contra hmore
    have hlen := List.length_pos_iff.mpr hmore
    refine h.first i ?_ ⟨?_, ?_⟩
    · rw [← hs, List.length_append, State.lastResponse_length]
      omega
    · rw [← hs, List.getElem?_append_left (by rw [State.lastResponse_length]; omega), h0]
    · rw [← hs, List.getElem?_append_left (by rw [State.lastResponse_length]; omega), h1]
  · rintro rfl
    obtain ⟨front, hfront⟩ := h.ends
    rw [List.append_nil, hfront] at hs
    refine ⟨front.length, (s.pairAt_iff _).mpr ?_, ?_⟩
    · simp [hs]
    · rw [← State.lastResponse_length, hs]
      simp

/-! ### The events of a read -/

theorem mem_receivedBytes {b : Byte} {events : List Event} (h : .rxByte b ∈ events) : b ∈ receivedBytes events := by
  induction events with
  | nil => cases h
  | cons e es ih =>
    rcases List.mem_cons.mp h with rfl | hmem
    · exact List.mem_cons_self
    · cases e with
      | rxByte c => exact List.mem_cons_of_mem c (ih hmem)
      | _ => exact ih hmem

@[simp] theorem receivedBytes_map_rxByte (bytes : List Byte) : receivedBytes (bytes.map .rxByte) = bytes := by
  induction bytes with
  | nil => rfl
  | cons b bs ih => simp [receivedBytes, ih]

theorem budgetKept_map_rxByte (p : Config.Params) (counted : Nat) (bytes : List Byte) :
    BudgetKept p counted (bytes.map .rxByte) := by
  induction bytes generalizing counted with
  | nil => trivial
  | cons b bs ih => exact ih _

/-- A read that is going on: the response is the beginning of the stream that the coming events complete, and they keep
the budget. -/
structure State.Receiving (s : State) (stream : List Byte) (events : List Event) : Prop where
  /-- the read goes on -/
  reading : s.ctl.reading = true
  /-- what is received and what is coming make the stream -/
  stream_eq : s.lastResponse ++ receivedBytes events = stream
  /-- the coming empty polls stay below the budget -/
  budget : BudgetKept s.params s.emptyCnt events

/-- A read that has ended on the terminator with the whole stream received. -/
structure State.Received (s : State) (stream : List Byte) : Prop where
  /-- no read goes on -/
  stopped : s.ctl.reading = false
  /-- it ended on the terminator -/
  terminated : s.rxTerm = true
  /-- the response is the stream -/
  response : s.lastResponse = stream

/-- What is read off a state that has received the stream (R152). -/
theorem State.Received.outputs {t : State} {stream : List Byte} (h : t.Received stream) :
    t.rxCount.toNat = stream.length ∧ t.rxTerm = true ∧ t.req ≠ .readByte ∧ t.lastResponse = stream :=
  ⟨by rw [← t.lastResponse_length, h.response], h.terminated, State.req_ne_readByte h.stopped, h.response⟩

section
variable {s t : State} {stream : List Byte} {events : List Event} {b : Byte}

theorem State.Receiving.withInputs (h : s.Receiving stream events) (es : List Event) :
    (s.withInputs es).Receiving stream events :=
  ⟨h.reading, h.stream_eq, h.budget⟩

/-- An ignored `Start`, a `Tick` and an empty poll below the budget keep the read going (R47, R48, R147, R148). -/
theorem State.Receiving.of_no_byte {e : Event} (h : s.Receiving stream (e :: events))
    (he : e = .start ∨ e = .tick ∨ e = .rxEmpty) (hrow : s.Row e t) : t.Receiving stream events := by
  obtain ⟨hr, hstream, hbudget⟩ := h
  have hsettle := Ctl.settling_of_reading hr
  rcases he with rfl | rfl | rfl
  · cases hrow with
    | sendReset hc => simp [hc, Ctl.reading] at hr
    | startIgnored _ => exact ⟨hr, hstream, hbudget⟩
  · cases hrow with
    | sendIdentify hc _ | sendRegister hc _ _ | serialMissing hc _ _ => simp [hc, Ctl.reading] at hr
    | settleTick hs _ => simp [hsettle] at hs
    | backoffTick _ _ | tickIgnored _ _ => exact ⟨hr, hstream, hbudget⟩
  · obtain ⟨hroom, hbudget⟩ := hbudget
    cases hrow with
    | emptyBacksOff _ _ _ => exact ⟨hr, hstream, hbudget⟩
    | emptyGivesUp _ _ hspent => omega

/-- A stream that fits the buffer has room for each of its bytes (R146). -/
theorem State.Receiving.room (h : s.Receiving stream (.rxByte b :: events)) (hends : EndsAtFirstPair stream) :
    s.rxCount.toNat + 1 + (receivedBytes events).length ≤ 256 := by
  have hfits := hends.fits
  rw [← h.stream_eq] at hfits
  simp only [receivedBytes, List.length_append, List.length_cons, State.lastResponse_length] at hfits
  omega

/-- A byte of the stream moves from the coming ones to the response. -/
theorem State.Receiving.takeByte (h : s.Receiving stream (.rxByte b :: events)) (hends : EndsAtFirstPair stream) :
    (s.takeByte b).Receiving stream events := by
  have hroom := h.room hends
  refine ⟨h.reading, ?_, h.budget⟩
  rw [State.takeByte_lastResponse s b (by omega), List.append_assoc]
  exact h.stream_eq

/-- A byte before the last one of the stream keeps the read going. -/
theorem State.Receiving.of_byte (h : s.Receiving stream (.rxByte b :: events)) (hends : EndsAtFirstPair stream)
    (hmore : receivedBytes events ≠ []) (hrow : s.Row (.rxByte b) t) : t.Receiving stream events := by
  have htaken := h.takeByte hends
  cases hrow with
  | byteKept _ _ _ _ _ => exact htaken
  | byteTerminates _ _ _ hterm => exact absurd ((hends.terminated_iff htaken.stream_eq).mp hterm) hmore
  | byteFills _ _ hroom _ hfull =>
    have := h.room hends
    have := List.length_pos_iff.mpr hmore
    rw [State.takeByte_rxCount_toNat s b hroom] at hfull
    omega

/-- The last byte of the stream ends the read on the terminator. -/
theorem State.Receiving.of_last_byte (h : s.Receiving stream [.rxByte b]) (hends : EndsAtFirstPair stream)
    (hrow : s.Row (.rxByte b) t) : t.Received stream := by
  have htaken := h.takeByte hends
  have hterm := (hends.terminated_iff htaken.stream_eq).mpr rfl
  cases hrow with
  | byteKept _ _ _ hgoes _ | byteFills _ _ _ hgoes _ => simp [hterm] at hgoes
  | byteTerminates hr _ _ _ =>
    refine ⟨State.readDone_not_reading hr, State.readDone_rxTerm _, ?_⟩
    rw [State.readDone_lastResponse, ← htaken.stream_eq]
    exact (List.append_nil _).symm

/-- A run over the events of a read whose last one is a byte ends with the stream received. -/
theorem State.Receiving.run {rest : List Event} (h : s.Receiving stream events) (hends : EndsAtFirstPair stream)
    (hevents : ∀ e ∈ events, e = .start ∨ e = .tick ∨ e = .rxEmpty ∨ ∃ b, e = .rxByte b)
    (hlast : ∃ b, events.getLast? = some (.rxByte b)) (hi : s.inputs = events ++ rest)
    (hrun : core.run events.length s = .next t) : t.Received stream ∧ t.inputs = rest := by
  induction events generalizing s with
  | nil => simp at hlast
  | cons e es ih =>
    obtain ⟨u, hstep, hrunOn⟩ := exists_step_of_run_succ hrun
    have hrow := State.row_of_step hi hstep
    have hs := h.withInputs (es ++ rest)
    obtain ⟨he, hes⟩ := List.forall_mem_cons.mp hevents
    obtain ⟨last, hlast⟩ := hlast
    cases es with
    | nil =>
      obtain rfl : e = .rxByte last := by simpa using hlast
      cases hrunOn
      exact ⟨hs.of_last_byte hends hrow, hrow.inputs_eq⟩
    | cons e' es =>
      rw [List.getLast?_cons_cons] at hlast
      have hmore := List.ne_nil_of_mem (mem_receivedBytes (List.mem_of_getLast? hlast))
      have hu : u.Receiving stream (e' :: es) := by
        rcases he with he | he | he | ⟨b, rfl⟩
        · exact hs.of_no_byte (.inl he) hrow
        · exact hs.of_no_byte (.inr (.inl he)) hrow
        · exact hs.of_no_byte (.inr (.inr he)) hrow
        · exact hs.of_byte hends hmore hrow
      exact ih hu hes ⟨last, hlast⟩ hrow.inputs_eq hrunOn

/-- Bytes delivered one after another with no back-off running are all taken. -/
theorem State.Receiving.exists_run {bytes : List Byte} {rest : List Event} (h : s.Receiving stream (bytes.map .rxByte))
    (hends : EndsAtFirstPair stream) (hb : s.backoffCnt = 0) (hi : s.inputs = bytes.map .rxByte ++ rest) :
    ∃ t, core.run bytes.length s = .next t := by
  induction bytes generalizing s with
  | nil => exact ⟨s, rfl⟩
  | cons b bs ih =>
    have hroom := h.room hends
    have hstep := step_rxByte h.reading hb (by omega) hi
    have hrow := State.row_of_step hi hstep
    rw [List.length_cons, run_of_step_eq_next hstep]
    cases bs with
    | nil => exact ⟨_, rfl⟩
    | cons b' bs =>
      refine ih ((h.withInputs _).of_byte hends (by simp [receivedBytes]) hrow) ?_ hrow.inputs_eq
      obtain ⟨_, _, _, _, _, _, hframe⟩ := ((s.withInputs _).takeByte b).afterByte_frame
      rw [hframe]
      exact hb

end

/-- A read that starts with nothing received receives the bytes of its events. -/
theorem State.receiving_of_empty {s : State} {events : List Event} (hr : s.ctl.reading = true) (hcount : s.rxCount = 0)
    (hbudget : BudgetKept s.params s.emptyCnt events) : s.Receiving (receivedBytes events) events := by
  have hempty : s.lastResponse = [] := by simp [State.lastResponse, State.rxBytes, hcount]
  exact ⟨hr, by rw [hempty, List.nil_append], hbudget⟩

/-- Settles O38: a run over the events of the read keeps it receiving up to the last byte of the stream, and bytes
delivered one after another make such a run. -/
theorem readEndsAtTheFirstTerminator : Obligations.ReadEndsAtTheFirstTerminator := by
  refine ⟨fun s t events rest hr hcount _ hends hevents hlast hbudget hi hrun => ?_,
    fun s bytes rest hr hcount hb hends hi => ?_⟩
  · obtain ⟨hreceived, hrest⟩ := (State.receiving_of_empty hr hcount hbudget).run hends hevents hlast hi hrun
    obtain ⟨hlen, hterm, hreq, hresponse⟩ := hreceived.outputs
    exact ⟨hlen, hterm, hreq, hresponse, hrest⟩
  · have hs := State.receiving_of_empty hr hcount (budgetKept_map_rxByte s.params s.emptyCnt bytes)
    rw [receivedBytes_map_rxByte] at hs
    obtain ⟨t, hrun⟩ := hs.exists_run hends hb hi
    have hlast : ∃ b, (bytes.map Event.rxByte).getLast? = some (.rxByte b) := by
      obtain ⟨front, rfl⟩ := hends.ends
      exact ⟨0x0D, by simp⟩
    have hbytes : ∀ e ∈ bytes.map Event.rxByte, e = .start ∨ e = .tick ∨ e = .rxEmpty ∨ ∃ b, e = .rxByte b := by
      simp
    have hall : core.run (bytes.map Event.rxByte).length s = .next t := by rw [List.length_map, hrun]
    obtain ⟨hreceived, -⟩ := hs.run hends hbytes hlast hi hall
    exact ⟨t, hrun, hreceived.outputs⟩

end Sys2Proof.Machine
end

section
/-! Every row of Table T10 keeps a state legal: the clauses of `State.Legal` in groups that the rows keep one by one,
each group with what a command's write, a failure and the end of a read do to it. -/

namespace Sys2Proof.Machine

/-! ### Fields that a write, a stored byte and the end of a read leave -/

section
variable (s : State)

@[simp] theorem State.issue_settleCnt (control function : Byte) (payload : List Byte) (next : Ctl) :
    (s.issue control function payload next).settleCnt = s.settleCnt := by
  obtain ⟨_, _, _, _, _, _, _, h⟩ := s.issue_frame control function payload next
  rw [h]

@[simp] theorem State.issue_backoffCnt (control function : Byte) (payload : List Byte) (next : Ctl) :
    (s.issue control function payload next).backoffCnt = s.backoffCnt := by
  obtain ⟨_, _, _, _, _, _, _, h⟩ := s.issue_frame control function payload next
  rw [h]

@[simp] theorem State.issue_emptyCnt (control function : Byte) (payload : List Byte) (next : Ctl) :
    (s.issue control function payload next).emptyCnt = s.emptyCnt := by
  obtain ⟨_, _, _, _, _, _, _, h⟩ := s.issue_frame control function payload next
  rw [h]

@[simp] theorem State.takeByte_txLen (b : Byte) : (s.takeByte b).txLen = s.txLen := rfl
@[simp] theorem State.takeByte_settleCnt (b : Byte) : (s.takeByte b).settleCnt = s.settleCnt := rfl
@[simp] theorem State.takeByte_backoffCnt (b : Byte) : (s.takeByte b).backoffCnt = s.backoffCnt := rfl

theorem State.takeByte_emptyCnt_le (b : Byte) : (s.takeByte b).emptyCnt ≤ s.emptyCnt := by
  show (if s.params.emptyResetOnByte then 0 else s.emptyCnt) ≤ s.emptyCnt
  split <;> omega

@[simp] theorem State.readDone_txLen : s.readDone.txLen = s.txLen := by
  obtain ⟨_, _, _, _, _, _, h⟩ := s.readDone_frame
  rw [h]

@[simp] theorem State.readDone_backoffCnt : s.readDone.backoffCnt = s.backoffCnt := by
  obtain ⟨_, _, _, _, _, _, h⟩ := s.readDone_frame
  rw [h]

@[simp] theorem State.readDone_emptyCnt : s.readDone.emptyCnt = s.emptyCnt := by
  obtain ⟨_, _, _, _, _, _, h⟩ := s.readDone_frame
  rw [h]

end

/-! ### The buffers -/

/-- A buffer keeps its form and every byte below a length is written (R25, R27, R60). -/
def Memory.Holds (m : Memory) (n : Nat) : Prop :=
  m.wf ∧ ∀ i, i < n → (m.read? i).isSome = true

theorem Memory.Holds.none {m : Memory} (h : m.wf) : m.Holds 0 :=
  ⟨h, nofun⟩

theorem Memory.holds_nil : Memory.Holds [] 0 :=
  .none ⟨.nil, nofun⟩

theorem Memory.Holds.write {m : Memory} {n : Nat} (h : m.Holds n) (hn : n < 256) (b : Byte) :
    (m.write n b).Holds (n + 1) := by
  obtain ⟨hwf, hwritten⟩ := h
  refine ⟨Memory.wf_write hwf hn, fun i hi => ?_⟩
  rw [Memory.read?_write]
  split
  · rfl
  · exact hwritten i (by omega)

theorem Memory.holds_writeBytes {m : Memory} {bytes : List Byte} (h : m.wf) (hfits : bytes.length ≤ 256) :
    (m.writeBytes 0 bytes).Holds bytes.length := by
  refine ⟨Memory.wf_writeBytes h (by omega), fun i hi => ?_⟩
  rw [Memory.read?_writeBytes, if_pos (by omega)]
  simp [hi]

/-- The clauses of `State.Legal` on `tx_buf` and its length. -/
def State.FrameHeld (s : State) : Prop :=
  s.txBuf.Holds s.txLen.toNat ∧ s.txLen.toNat ≤ 251

/-- The clauses of `State.Legal` on `rx_buf` and its count. -/
def State.ResponseHeld (s : State) : Prop :=
  s.rxBuf.Holds s.rxCount.toNat ∧ s.rxCount.toNat ≤ 256

/-- The frame issued is written whole and fits, and a refused one leaves an empty one (R26, R116, R117). -/
theorem State.FrameHeld.issue {s : State} (h : s.FrameHeld) (control function : Byte) (payload : List Byte)
    (next : Ctl) : (s.issue control function payload next).FrameHeld := by
  obtain ⟨⟨hwf, -⟩, -⟩ := h
  rcases Nat.lt_or_ge 240 payload.length with hlong | hfits
  · rw [State.issue_refused hlong]
    exact ⟨.none hwf, Nat.zero_le _⟩
  · have hlen := frameBytes_length 0x01 s.destAddr control function payload
    have htxLen : (BitVec.ofNat 9 (11 + payload.length)).toNat = 11 + payload.length := by
      rw [BitVec.toNat_ofNat]
      omega
    rw [State.issue_ok hfits, State.FrameHeld, htxLen, ← hlen]
    exact ⟨Memory.holds_writeBytes hwf (by omega), by omega⟩

theorem State.ResponseHeld.takeByte {s : State} (h : s.ResponseHeld) (hroom : s.rxCount.toNat < 256) (b : Byte) :
    (s.takeByte b).ResponseHeld := by
  obtain ⟨hheld, -⟩ := h
  rw [State.ResponseHeld, State.takeByte_rxCount_toNat s b hroom]
  exact ⟨hheld.write hroom b, hroom⟩

theorem State.ResponseHeld.readDone {s : State} (h : s.ResponseHeld) : s.readDone.ResponseHeld := by
  simpa [State.ResponseHeld] using h

theorem State.Row.frameHeld {s t : State} {e : Event} (h : s.Row e t) (hs : s.FrameHeld) : t.FrameHeld := by
  cases h with
  | sendReset _ | sendIdentify _ _ | sendRegister _ _ _ | sendPoll _ =>
    apply State.FrameHeld.issue
    exact hs
  | reset => exact ⟨Memory.holds_nil, Nat.zero_le _⟩
  | _ => simpa [State.FrameHeld] using hs

theorem State.Row.responseHeld {s t : State} {e : Event} (h : s.Row e t) (hs : s.ResponseHeld) :
    t.ResponseHeld := by
  cases h with
  | reset => exact ⟨Memory.holds_nil, Nat.zero_le _⟩
  | ackRequest _ => exact ⟨.none hs.1.1, Nat.zero_le _⟩
  | byteKept _ _ hroom _ _ => exact hs.takeByte hroom _
  | byteTerminates _ _ hroom _ => exact State.ResponseHeld.readDone (hs.takeByte hroom _)
  | byteFills _ _ hroom _ _ => exact (hs.takeByte hroom _).readDone
  | _ => simpa [State.ResponseHeld] using hs

/-! ### The received count a state relies on -/

/-- The states whose response was checked (R181, R193, R199, R202). -/
def Ctl.checked : Ctl → Bool
  | .identified | .registered | .polled | .success => true
  | .idle | .rstTx | .reset | .idTx | .idRx | .regTx | .regRx | .pollTx | .pollRx | .failed => false

/-- The clauses of `State.Legal` on how many bytes were received. -/
def State.CountFits (s : State) : Prop :=
  (s.ctl.reading = true → s.rxCount.toNat < 256)
    ∧ (s.ctl = .identified ∨ s.ctl = .registered ∨ s.ctl = .polled → 7 ≤ s.rxCount.toNat)
    ∧ (s.ctl = .success → 27 ≤ s.rxCount.toNat)

/-- Nothing is asked of the count where no response is read or was checked. -/
theorem State.countFits_of_ctl {s : State} (h : s.ctl.reading = false ∧ s.ctl.checked = false) : s.CountFits := by
  obtain ⟨hr, hc⟩ := h
  refine ⟨by simp [hr], ?_, ?_⟩
  · rintro (h | h | h) <;> simp [h, Ctl.checked] at hc
  · intro h
    simp [h, Ctl.checked] at hc

theorem State.countFits_of_reading {s : State} (hr : s.ctl.reading = true) (h : s.rxCount.toNat < 256) :
    s.CountFits := by
  refine ⟨fun _ => h, ?_, ?_⟩ <;> rcases s.ctl.reading_iff.mp hr with hc | hc | hc <;> simp [hc]

theorem State.countFits_issue (s : State) (control function : Byte) (payload : List Byte) {next : Ctl}
    (hn : next.reading = false ∧ next.checked = false) : (s.issue control function payload next).CountFits := by
  apply State.countFits_of_ctl
  rcases s.issue_ctl_cases control function payload next with hc | hc <;> rw [hc]
  · exact hn
  · exact ⟨rfl, rfl⟩

/-- A response accepted has its header (R181, R193, R199). -/
theorem State.countFits_readDone {s : State} (hr : s.ctl.reading = true) : s.readDone.CountFits := by
  rcases Nat.lt_or_ge s.rxCount.toNat 7 with hshort | hheader
  · rw [State.readDone_of_short hshort]
    exact State.countFits_of_ctl ⟨rfl, rfl⟩
  · refine ⟨by simp [State.readDone_not_reading hr], fun _ => by rwa [State.readDone_rxCount], fun hsuccess => ?_⟩
    rcases State.readDone_ctl_cases hr with hc | ⟨-, hc⟩ | ⟨-, hc⟩ | ⟨-, hc⟩ <;> simp [hc] at hsuccess

theorem State.Row.countFits {s t : State} {e : Event} (h : s.Row e t) (hs : s.CountFits) : t.CountFits := by
  cases h with
  | sendReset _ | sendIdentify _ _ | sendRegister _ _ _ | sendPoll _ => exact State.countFits_issue _ _ _ _ ⟨rfl, rfl⟩
  | serialMissing _ _ _ | reset | ackReset _ | shortWrite _ _ | writeFails _ | readFails _ _ | telemetryShort _ _ =>
    exact State.countFits_of_ctl ⟨rfl, rfl⟩
  | startIgnored _ | settleTick _ _ | backoffTick _ _ | tickIgnored _ _ | emptyBacksOff _ _ _ => exact hs
  | ackRequest hc =>
    refine State.countFits_of_reading ?_ (by simp)
    rcases hc with ⟨-, rfl⟩ | ⟨-, rfl⟩ | ⟨-, rfl⟩ <;> rfl
  | byteKept hr _ hroom _ hmore =>
    refine State.countFits_of_reading hr ?_
    rw [State.takeByte_rxCount_toNat s _ hroom] at hmore ⊢
    omega
  | byteTerminates hr _ _ _ | byteFills hr _ _ _ _ | emptyGivesUp hr _ _ => exact State.countFits_readDone hr
  | telemetryReceived _ h27 => exact ⟨nofun, by simp, fun _ => h27⟩

/-! ### The destination -/

/-- The clause of `State.Legal` on `dest_addr`. -/
def State.DestFits (s : State) : Prop :=
  s.destAddr = if s.stage.addressAssigned = true then 1 else 0

theorem State.stage_of_ne {s : State} (h : s.ctl ≠ .failed) : s.stage = s.ctl :=
  if_neg h

@[simp] theorem State.raiseFailure_stage (s : State) (reason : FailReason) : (s.raiseFailure reason).stage = s.ctl :=
  rfl

theorem State.DestFits.congr {s t : State} (h : s.DestFits) (hdest : t.destAddr = s.destAddr)
    (hstage : t.stage.addressAssigned = s.stage.addressAssigned) : t.DestFits := by
  rw [State.DestFits, hdest, hstage]
  exact h

/-- A command's write goes on to its own state or fails in the present one. -/
theorem State.issue_stage (s : State) (control function : Byte) (payload : List Byte) {next : Ctl}
    (hn : next ≠ .failed) :
    (s.issue control function payload next).stage = next ∨ (s.issue control function payload next).stage = s.ctl := by
  rcases Nat.lt_or_ge 240 payload.length with hlong | hfits
  · rw [State.issue_refused hlong]
    exact .inr rfl
  · rw [State.issue_ok hfits]
    exact .inl (State.stage_of_ne hn)

/-- A write that leaves the session's part of the address leaves the destination right. -/
theorem State.DestFits.issue {s : State} (h : s.DestFits) (control function : Byte) (payload : List Byte)
    {next : Ctl} (hn : next ≠ .failed) (hc : s.ctl ≠ .failed)
    (hassigned : next.addressAssigned = s.ctl.addressAssigned) :
    (s.issue control function payload next).DestFits := by
  refine h.congr (by simp) ?_
  rw [State.stage_of_ne hc]
  rcases s.issue_stage control function payload hn with hstage | hstage <;> rw [hstage]
  exact hassigned

/-- The end of a read stays in its part of the session. -/
theorem State.DestFits.readDone {s : State} (h : s.DestFits) (hr : s.ctl.reading = true) : s.readDone.DestFits := by
  refine h.congr (by simp) ?_
  have hc : s.ctl ≠ .failed := fun hc => by simp [hc, Ctl.reading] at hr
  rw [State.stage_of_ne hc]
  rcases s.readDone_cases with ⟨-, hd⟩ | ⟨-, hd⟩ <;> rw [hd]
  · rcases s.ctl.reading_iff.mp hr with hc | hc | hc <;>
      simp [State.acceptResponse, State.stage, hc, Ctl.addressAssigned]
  · rfl

/-- A failure records the state it is raised in. -/
theorem State.DestFits.raiseFailure {s : State} {reason : FailReason} (h : s.DestFits) (hc : s.ctl ≠ .failed) :
    (s.raiseFailure reason).DestFits :=
  h.congr rfl (by rw [State.raiseFailure_stage, State.stage_of_ne hc])

theorem Ctl.ne_failed_of_reading {c : Ctl} (h : c.reading = true) : c ≠ .failed := by
  rintro rfl
  cases h

theorem Ctl.ne_failed_of_writing {c : Ctl} (h : c.writing = true) : c ≠ .failed := by
  rintro rfl
  cases h

theorem State.Row.destFits {s t : State} {e : Event} (h : s.Row e t) (hs : s.DestFits) : t.DestFits := by
  cases h with
  | sendReset hc | sendIdentify hc _ | sendRegister hc _ _ =>
    apply State.DestFits.issue
    · exact hs
    · exact nofun
    · simp [hc]
    · simp only [hc]
      rfl
  | sendPoll _ =>
    rw [State.issue_ok (by simp)]
    rfl
  | reset => rfl
  | serialMissing hc _ _ | telemetryShort hc _ => exact State.DestFits.raiseFailure hs (by simp [hc])
  | shortWrite hw _ | writeFails hw => exact hs.raiseFailure (Ctl.ne_failed_of_writing hw)
  | readFails hr _ => exact hs.raiseFailure (Ctl.ne_failed_of_reading hr)
  | startIgnored _ | settleTick _ _ | backoffTick _ _ | tickIgnored _ _ | byteKept _ _ _ _ _ | emptyBacksOff _ _ _ =>
    exact hs
  | ackReset hc | telemetryReceived hc _ => exact hs.congr rfl (by simp [State.stage, hc, Ctl.addressAssigned])
  | ackRequest hc =>
    refine hs.congr rfl ?_
    rcases hc with ⟨hc, rfl⟩ | ⟨hc, rfl⟩ | ⟨hc, rfl⟩ <;> simp [State.stage, hc, Ctl.addressAssigned]
  | byteTerminates hr _ _ _ | byteFills hr _ _ _ _ | emptyGivesUp hr _ _ => exact State.DestFits.readDone hs hr

/-! ### The timers -/

/-- The clauses of `State.Legal` on `settle_cnt`. -/
def State.SettleFits (s : State) : Prop :=
  (s.ctl.settling = true → 1 ≤ s.settleCnt) ∧ s.settleCnt ≤ s.params.settleTicks
    ∧ (s.ctl.settling = false → s.settleCnt = 0)

/-- The clauses of `State.Legal` on `backoff_cnt`. -/
def State.BackoffFits (s : State) : Prop :=
  s.backoffCnt ≤ s.params.backoffTicks ∧ (s.ctl.reading = false → s.backoffCnt = 0)

/-- The clauses of `State.Legal` on `empty_cnt`. -/
def State.EmptyFits (s : State) : Prop :=
  s.emptyCnt ≤ s.params.retryBudget ∧ (s.ctl.reading = true → s.emptyCnt < s.params.retryBudget)

theorem Ctl.writing_iff (c : Ctl) : c.writing = true ↔ c = .rstTx ∨ c = .idTx ∨ c = .regTx ∨ c = .pollTx := by
  cases c <;> simp [Ctl.writing]

theorem Ctl.settling_of_writing {c : Ctl} (h : c.writing = true) : c.settling = false := by
  rcases c.writing_iff.mp h with rfl | rfl | rfl | rfl <;> rfl

theorem Ctl.reading_of_writing {c : Ctl} (h : c.writing = true) : c.reading = false := by
  rcases c.writing_iff.mp h with rfl | rfl | rfl | rfl <;> rfl

theorem State.settleFits_of_zero {s : State} (hc : s.ctl.settling = false) (h : s.settleCnt = 0) : s.SettleFits :=
  ⟨by simp [hc], by omega, fun _ => h⟩

theorem State.settleFits_issue {s : State} (h : s.settleCnt = 0) (control function : Byte) (payload : List Byte)
    {next : Ctl} (hn : next.settling = false) : (s.issue control function payload next).SettleFits := by
  refine State.settleFits_of_zero ?_ (by rwa [State.issue_settleCnt])
  rcases s.issue_ctl_cases control function payload next with hc | hc <;> rw [hc]
  · exact hn
  · rfl

/-- The end of the identify read loads the second settle delay, and no other read's end does (R181). -/
theorem State.SettleFits.readDone {s : State} (h : s.SettleFits) (hr : s.ctl.reading = true)
    (hticks : 1 ≤ s.params.settleTicks) : s.readDone.SettleFits := by
  have hzero := h.2.2 (Ctl.settling_of_reading hr)
  rcases s.readDone_cases with ⟨-, hd⟩ | ⟨-, hd⟩ <;> rw [hd]
  · rcases s.ctl.reading_iff.mp hr with hc | hc | hc <;>
      simp [State.SettleFits, State.acceptResponse, hc, Ctl.settling, hticks, hzero]
  · exact State.settleFits_of_zero rfl hzero

theorem State.Row.settleFits {s t : State} {e : Event} (h : s.Row e t) (hs : s.SettleFits)
    (hticks : 1 ≤ s.params.settleTicks) : t.SettleFits := by
  obtain ⟨hpos, hle, hzero⟩ := hs
  cases h with
  | sendReset hc | sendPoll hc =>
    apply State.settleFits_issue
    · exact hzero (by simp [hc, Ctl.settling])
    · rfl
  | sendIdentify _ _ | sendRegister _ _ _ => exact State.settleFits_issue rfl _ _ _ rfl
  | serialMissing _ _ _ | reset => exact State.settleFits_of_zero rfl rfl
  | startIgnored _ | backoffTick _ _ | tickIgnored _ _ | byteKept _ _ _ _ _ | emptyBacksOff _ _ _ =>
    exact ⟨hpos, hle, hzero⟩
  | settleTick hset h1 => exact ⟨fun _ => Nat.sub_pos_of_lt h1, (Nat.sub_le ..).trans hle, by simp [hset]⟩
  | ackReset _ => exact ⟨fun _ => hticks, le_rfl, nofun⟩
  | ackRequest hc =>
    rcases hc with ⟨hc, rfl⟩ | ⟨hc, rfl⟩ | ⟨hc, rfl⟩ <;>
      exact State.settleFits_of_zero rfl (hzero (by simp [hc, Ctl.settling]))
  | shortWrite hw _ | writeFails hw => exact State.settleFits_of_zero rfl (hzero (Ctl.settling_of_writing hw))
  | readFails hr _ => exact State.settleFits_of_zero rfl (hzero (Ctl.settling_of_reading hr))
  | telemetryReceived hc _ | telemetryShort hc _ =>
    exact State.settleFits_of_zero rfl (hzero (by simp [hc, Ctl.settling]))
  | byteTerminates hr _ _ _ | byteFills hr _ _ _ _ | emptyGivesUp hr _ _ =>
    exact State.SettleFits.readDone ⟨hpos, hle, hzero⟩ hr hticks

theorem State.backoffFits_of_zero {s : State} (h : s.backoffCnt = 0) : s.BackoffFits :=
  ⟨by omega, fun _ => h⟩

theorem State.Row.backoffFits {s t : State} {e : Event} (h : s.Row e t) (hs : s.BackoffFits) : t.BackoffFits := by
  obtain ⟨hle, hzero⟩ := hs
  cases h with
  | sendReset hc | sendIdentify hc _ | sendRegister hc _ _ | serialMissing hc _ _ | sendPoll hc | ackReset hc
  | telemetryReceived hc _ | telemetryShort hc _ =>
    exact State.backoffFits_of_zero (by simpa using hzero (by simp [hc, Ctl.reading]))
  | shortWrite hw _ | writeFails hw => exact State.backoffFits_of_zero (hzero (Ctl.reading_of_writing hw))
  | reset | ackRequest _ => exact State.backoffFits_of_zero rfl
  | startIgnored _ | settleTick _ _ | tickIgnored _ _ => exact ⟨hle, hzero⟩
  | backoffTick hr _ => exact ⟨(Nat.sub_le ..).trans hle, by simp [hr]⟩
  | emptyBacksOff hr _ _ => exact ⟨le_rfl, by simp [hr]⟩
  | byteKept _ hb _ _ _ | byteTerminates _ hb _ _ | byteFills _ hb _ _ _ | emptyGivesUp _ hb _ | readFails _ hb =>
    exact State.backoffFits_of_zero (by simpa using hb)

/-- Outside a read the counted empty polls are only kept in their bound (R30). -/
theorem State.emptyFits_of_not_reading {s : State} (hr : s.ctl.reading = false)
    (h : s.emptyCnt ≤ s.params.retryBudget) : s.EmptyFits :=
  ⟨h, by simp [hr]⟩

theorem State.Row.emptyFits {s t : State} {e : Event} (h : s.Row e t) (hs : s.EmptyFits)
    (hbudget : 1 ≤ s.params.retryBudget) : t.EmptyFits := by
  obtain ⟨hle, hlt⟩ := hs
  cases h with
  | sendReset _ | sendIdentify _ _ | sendRegister _ _ _ | sendPoll _ =>
    refine State.emptyFits_of_not_reading ?_ (by simpa using hle)
    rcases State.issue_ctl_cases _ _ _ _ _ with hc | hc <;> rw [hc] <;> rfl
  | serialMissing _ _ _ | ackReset _ | shortWrite _ _ | writeFails _ | readFails _ _ | telemetryReceived _ _
  | telemetryShort _ _ => exact State.emptyFits_of_not_reading rfl hle
  | reset => exact State.emptyFits_of_not_reading rfl (Nat.zero_le _)
  | startIgnored _ | settleTick _ _ | backoffTick _ _ | tickIgnored _ _ => exact ⟨hle, hlt⟩
  | ackRequest _ => exact ⟨Nat.zero_le _, fun _ => hbudget⟩
  | @byteKept b hr _ _ _ _ =>
    have htaken := (s.takeByte_emptyCnt_le b).trans_lt (hlt hr)
    exact ⟨htaken.le, fun _ => htaken⟩
  | byteTerminates hr _ _ _ | byteFills hr _ _ _ _ =>
    refine State.emptyFits_of_not_reading (State.readDone_not_reading hr) ?_
    simpa using (s.takeByte_emptyCnt_le _).trans hle
  | emptyBacksOff _ _ hkept => exact ⟨hkept.le, fun _ => hkept⟩
  | emptyGivesUp hr _ _ =>
    refine State.emptyFits_of_not_reading (State.readDone_not_reading hr) ?_
    simpa using hlt hr

/-! ### The failure record -/

/-- The clauses of `State.Legal` on the failure record. -/
def State.RecordFits (s : State) : Prop :=
  (s.ctl ≠ .failed → s.failReason = .none ∧ s.failCode = 0 ∧ s.failState = .idle)
    ∧ (s.ctl = .failed → (s.failState, s.failReason, s.failCode) ∈ failureTable)

theorem State.recordFits_raiseFailure {s : State} {reason : FailReason}
    (h : (s.ctl, reason, s.ctl.failCode) ∈ failureTable) : (s.raiseFailure reason).RecordFits :=
  ⟨fun hne => absurd rfl hne, fun _ => h⟩

/-- A session that has not failed and does not fail keeps its empty record. -/
theorem State.RecordFits.congr {s t : State} (h : s.RecordFits) (hs : s.ctl ≠ .failed) (ht : t.ctl ≠ .failed)
    (hreason : t.failReason = s.failReason) (hcode : t.failCode = s.failCode) (hstate : t.failState = s.failState) :
    t.RecordFits := by
  refine ⟨fun _ => ?_, fun hc => absurd hc ht⟩
  rw [hreason, hcode, hstate]
  exact h.1 hs

/-- A command's write keeps the record, or is refused to REGISTER in `IDENTIFIED` (R191). -/
theorem State.RecordFits.issue {s : State} (h : s.RecordFits) (control function : Byte) {payload : List Byte}
    {next : Ctl} (hs : s.ctl ≠ .failed) (hn : next ≠ .failed) (hrefused : s.ctl = .identified ∨ payload = []) :
    (s.issue control function payload next).RecordFits := by
  rcases Nat.lt_or_ge 240 payload.length with hlong | hfits
  · rw [State.issue_refused hlong]
    apply State.recordFits_raiseFailure
    rcases hrefused with hc | rfl
    · simp only [hc]
      decide
    · simp at hlong
  · rw [State.issue_ok hfits]
    exact h.congr hs hn rfl rfl rfl

/-- The end of a read keeps the record, or fails on a short response, which each reading state may (R225). -/
theorem State.RecordFits.readDone {s : State} (h : s.RecordFits) (hr : s.ctl.reading = true) :
    s.readDone.RecordFits := by
  rcases Nat.lt_or_ge s.rxCount.toNat 7 with hshort | hheader
  · rw [State.readDone_of_short hshort]
    apply State.recordFits_raiseFailure
    rw [State.emit_ctl]
    rcases s.ctl.reading_iff.mp hr with hc | hc | hc <;> rw [hc] <;> decide
  · obtain ⟨hreason, hcode, hstate, -⟩ := State.readDone_accepted hheader
    refine h.congr (Ctl.ne_failed_of_reading hr) ?_ hreason hcode hstate
    rw [State.readDone_of_header hheader]
    rcases s.ctl.reading_iff.mp hr with hc | hc | hc <;> simp [State.acceptResponse, hc]

theorem State.Row.recordFits {s t : State} {e : Event} (h : s.Row e t) (hs : s.RecordFits) : t.RecordFits := by
  cases h with
  | sendReset hc | sendIdentify hc _ | sendRegister hc _ _ | sendPoll hc =>
    apply State.RecordFits.issue
    · exact hs
    · simp [hc]
    · exact nofun
    · simp [hc]
  | serialMissing hc _ _ =>
    apply State.recordFits_raiseFailure
    simp only [hc]
    decide
  | telemetryShort hc _ =>
    apply State.recordFits_raiseFailure
    rw [hc]
    decide
  | shortWrite hw _ | writeFails hw =>
    apply State.recordFits_raiseFailure
    rcases s.ctl.writing_iff.mp hw with hc | hc | hc | hc <;> rw [hc] <;> decide
  | readFails hr _ =>
    apply State.recordFits_raiseFailure
    rcases s.ctl.reading_iff.mp hr with hc | hc | hc <;> rw [hc] <;> decide
  | reset => exact ⟨fun _ => ⟨rfl, rfl, rfl⟩, nofun⟩
  | startIgnored _ | settleTick _ _ | backoffTick _ _ | tickIgnored _ _ | byteKept _ _ _ _ _ | emptyBacksOff _ _ _ =>
    exact hs
  | ackReset hc | telemetryReceived hc _ => exact hs.congr (by simp [hc]) nofun rfl rfl rfl
  | ackRequest hc =>
    refine hs.congr ?_ ?_ rfl rfl rfl <;> rcases hc with ⟨hc, rfl⟩ | ⟨hc, rfl⟩ | ⟨hc, rfl⟩ <;> simp [hc]
  | byteTerminates hr _ _ _ | byteFills hr _ _ _ _ | emptyGivesUp hr _ _ => exact State.RecordFits.readDone hs hr

/-! ### Legal states -/

/-- `State.Legal` in the groups above. -/
theorem State.legal_iff (s : State) :
    s.Legal ↔ s.params.Runs ∧ s.FrameHeld ∧ s.ResponseHeld ∧ s.CountFits ∧ s.DestFits ∧ s.SettleFits ∧ s.BackoffFits
      ∧ s.EmptyFits ∧ s.RecordFits := by
  constructor
  · intro h
    exact ⟨h.paramsRun, ⟨⟨h.txWf, h.txWritten⟩, h.txLen_le⟩, ⟨⟨h.rxWf, h.rxWritten⟩, h.rxCount_le⟩,
      ⟨h.rxRoom, h.rxHeader, h.rxTelemetry⟩, h.dest, ⟨h.settlePos, h.settle_le, h.settleZero⟩,
      ⟨h.backoff_le, h.backoffZero⟩, ⟨h.empty_le, h.emptyRoom⟩, ⟨h.noRecord, h.record⟩⟩
  · rintro ⟨hparams, ⟨⟨htxWf, htxWritten⟩, htxLen⟩, ⟨⟨hrxWf, hrxWritten⟩, hrxCount⟩, ⟨hroom, hheader, htelemetry⟩,
      hdest, ⟨hsettlePos, hsettleLe, hsettleZero⟩, ⟨hbackoffLe, hbackoffZero⟩, ⟨hemptyLe, hemptyRoom⟩,
      ⟨hnoRecord, hrecord⟩⟩
    exact ⟨hparams, htxWf, hrxWf, htxLen, htxWritten, hrxCount, hroom, hrxWritten, hheader, htelemetry, hdest,
      hsettlePos, hsettleLe, hsettleZero, hbackoffLe, hbackoffZero, hemptyLe, hemptyRoom, hnoRecord, hrecord⟩

/-- Every row of Table T10 keeps a state legal. -/
theorem State.Row.legal {s t : State} {e : Event} (h : s.Row e t) (hs : s.Legal) : t.Legal := by
  obtain ⟨hparams, hframe, hresponse, hcount, hdest, hsettle, hbackoff, hempty, hrecord⟩ := s.legal_iff.mp hs
  have ⟨hticks, _, hbudget⟩ := hparams
  exact t.legal_iff.mpr ⟨h.params_eq ▸ hparams, h.frameHeld hframe, h.responseHeld hresponse, h.countFits hcount,
    h.destFits hdest, h.settleFits hsettle hticks, h.backoffFits hbackoff, h.emptyFits hempty hbudget,
    h.recordFits hrecord⟩

/-- Which events come is no clause of legality. -/
theorem State.Legal.withInputs {s : State} (h : s.Legal) (es : List Event) : (s.withInputs es).Legal :=
  (State.legal_iff _).mpr (s.legal_iff.mp h)

theorem State.Legal.step {s t : State} (h : s.Legal) (hs : step s = .next t) : t.Legal := by
  rcases step_eq_next_cases hs with rfl | ⟨e, rest, -, hrow⟩
  · exact h
  · exact hrow.legal (h.withInputs rest)

/-- The reset state is legal with any parameters that keep the counts of Table T2, whatever events come. -/
theorem State.legal_reset {p : Config.Params} (hp : p.Runs) (events : List Event) :
    State.Legal { State.reset with params := p, inputs := events } :=
  (State.legal_iff _).mpr ⟨hp, ⟨Memory.holds_nil, Nat.zero_le _⟩, ⟨Memory.holds_nil, Nat.zero_le _⟩,
    State.countFits_of_ctl ⟨rfl, rfl⟩, rfl, State.settleFits_of_zero rfl rfl, State.backoffFits_of_zero rfl,
    State.emptyFits_of_not_reading rfl (Nat.zero_le _), ⟨fun _ => ⟨rfl, rfl, rfl⟩, nofun⟩⟩

end Sys2Proof.Machine
end

section
/-! EveryStepKeepsTheSessionInOrder and EveryRunFollowsTheSession: each row of Table T10 adds to the trace the record
that its session's trace has next, or none (R206), and a run keeps what every step keeps. -/

namespace Sys2Proof.Machine

/-! ### The records of a session -/

theorem State.records_of_ne {s : State} (h : s.ctl ≠ .failed) : s.records = s.ctl.records :=
  if_neg h

/-- A failure but that of a short response adds no record (R149, R226). -/
theorem State.raiseFailure_records {s : State} {reason : FailReason}
    (h : reason = .shortResponse → s.ctl.reading = false) : (s.raiseFailure reason).records = s.ctl.records := by
  have hnone : ¬(reason = .shortResponse ∧ s.ctl.reading = true) := fun ⟨hreason, hr⟩ => by simp [h hreason] at hr
  simp [State.records, hnone]

/-- A completed read adds one record, whether its response is accepted or too short (R150). -/
theorem State.readDone_records {s : State} (hr : s.ctl.reading = true) : s.readDone.records = s.ctl.records + 1 := by
  rcases s.readDone_cases with ⟨-, hd⟩ | ⟨-, hd⟩ <;> rw [hd]
  · rcases s.ctl.reading_iff.mp hr with hc | hc | hc <;> simp [State.acceptResponse, State.records, hc, Ctl.records]
  · simp [State.records, hr]

/-- A trace that its session's trace goes on with one more record. -/
theorem sessionTrace_take_succ {a b c : List Byte} {n : Nat} {r : TraceRecord} (h : (sessionTrace a b c)[n]? = some r) :
    (sessionTrace a b c).take n ++ [r] = (sessionTrace a b c).take (n + 1) := by
  rw [List.take_add_one, h]
  rfl

/-- A reading state's session may go on with any response. -/
theorem sessionTrace_take_read {ctl : Ctl} (hr : ctl.reading = true) (a b c r : List Byte) :
    ∃ a' b' c', (sessionTrace a b c).take ctl.records ++ [.rx r] = (sessionTrace a' b' c').take (ctl.records + 1)
      ∧ (ctl = .idRx → a' = r) ∧ (ctl = .regRx → b' = r) ∧ (ctl = .pollRx → c' = r) := by
  rcases ctl.reading_iff.mp hr with rfl | rfl | rfl
  · exact ⟨r, b, c, rfl, fun _ => rfl, nofun, nofun⟩
  · exact ⟨a, r, c, rfl, nofun, fun _ => rfl, nofun⟩
  · exact ⟨a, b, r, rfl, nofun, nofun, fun _ => rfl⟩

/-- The serial number that the identify response carries is the one REGISTER sends (R86). -/
theorem State.serialOf_lastResponse {s : State} (h : s.serialInRange = true) :
    serialOf s.lastResponse = s.serialNumber := by
  rw [State.serialInRange_iff] at h
  have hlen : s.lastResponse.getD 6 0 = s.rxByte 6 := by
    rw [List.getD_eq_getElem?_getD, State.lastResponse_getElem?, if_pos (by omega), Option.getD_some]
  rw [serialOf, hlen]
  apply List.ext_getElem
  · simp [State.serialNumber, State.rxBytes, State.serialLength]
    omega
  · intro i _ _
    simp [State.serialNumber, State.rxBytes, State.lastResponse]

/-! ### What keeps a session in order -/

theorem Ctl.checked_of_reading {c : Ctl} (h : c.reading = true) : c.checked = false := by
  rcases c.reading_iff.mp h with rfl | rfl | rfl <;> rfl

/-- The trace alone, where no response has been checked and no write is outstanding. -/
theorem State.inSession_of_trace {s : State} {a b c : List Byte} (hchecked : s.ctl.checked = false)
    (hw : s.ctl.writing = false) (h : s.trace = (sessionTrace a b c).take s.records) : s.InSession := by
  refine ⟨a, b, c, h, ?_, ?_, ?_, by simp [hw]⟩
  · intro hc
    simp [hc, Ctl.checked] at hchecked
  · intro hc
    simp [hc, Ctl.checked] at hchecked
  · rintro (hc | hc) <;> simp [hc, Ctl.checked] at hchecked

/-- A failure without a response keeps the trace (R226). -/
theorem State.InSession.raiseFailure {s : State} {reason : FailReason} (h : s.InSession) (hc : s.ctl ≠ .failed)
    (hreason : reason = .shortResponse → s.ctl.reading = false) : (s.raiseFailure reason).InSession := by
  obtain ⟨a, b, c, hsession, -⟩ := h
  refine State.inSession_of_trace (a := a) (b := b) (c := c) rfl rfl ?_
  rw [State.raiseFailure_records hreason, State.raiseFailure_trace, hsession, State.records_of_ne hc]

/-- A write of the frame that the session's trace has next. -/
theorem State.inSession_issue {s : State} {control function : Byte} {payload a b c : List Byte} {next : Ctl} {n : Nat}
    (htrace : s.trace = (sessionTrace a b c).take n) (hfits : payload.length ≤ 240)
    (hframe : (sessionTrace a b c)[n]? = some (.tx (frameBytes 0x01 s.destAddr control function payload)))
    (hw : next.writing = true) (hnext : next.records = n + 1) :
    (s.issue control function payload next).InSession := by
  have hctl : (s.issue control function payload next).ctl = next := by rw [State.issue_ok hfits]
  have hrecords : (s.issue control function payload next).records = n + 1 := by
    rw [State.records_of_ne (by rw [hctl]; exact Ctl.ne_failed_of_writing hw), hctl, hnext]
  have hissued : (s.issue control function payload next).trace =
      s.trace ++ [.tx (frameBytes 0x01 s.destAddr control function payload)] := by rw [State.issue_ok hfits]
  refine ⟨a, b, c, ?_, ?_, ?_, ?_, ?_⟩
  · rw [hissued, htrace, hrecords, sessionTrace_take_succ hframe]
  · rw [hctl]
    rintro rfl
    cases hw
  · rw [hctl]
    rintro rfl
    cases hw
  · rw [hctl]
    rintro (rfl | rfl) <;> cases hw
  · intro _
    rw [hissued, State.issue_txFrame hfits]
    simp

/-- What a completed read leads to says which read it was. -/
theorem State.ctl_of_readDone {s : State} (hr : s.ctl.reading = true) :
    (s.readDone.ctl = .identified → s.ctl = .idRx) ∧ (s.readDone.ctl = .registered → s.ctl = .regRx)
      ∧ (s.readDone.ctl = .polled ∨ s.readDone.ctl = .success → s.ctl = .pollRx) ∧ s.readDone.ctl.writing = false := by
  rcases State.readDone_ctl_cases hr with hd | ⟨hc, hd⟩ | ⟨hc, hd⟩ | ⟨hc, hd⟩ <;> simp [*, Ctl.writing]

/-- The end of a read puts its response into the place that the session's trace still left open (R150). -/
theorem State.InSession.readDone {s : State} (h : s.InSession) (hr : s.ctl.reading = true) :
    s.readDone.InSession := by
  obtain ⟨a, b, c, htrace, -⟩ := h
  rw [State.records_of_ne (Ctl.ne_failed_of_reading hr)] at htrace
  obtain ⟨a', b', c', hsession, hid, hreg, hpoll⟩ := sessionTrace_take_read hr a b c s.lastResponse
  obtain ⟨hidentified, hregistered, hpolled, hw⟩ := State.ctl_of_readDone hr
  refine ⟨a', b', c', ?_, ?_, ?_, ?_, by simp [hw]⟩
  · rw [State.readDone_trace, State.readDone_records hr, htrace, hsession]
  all_goals intro hc; rw [State.readDone_lastResponse]
  · exact hid (hidentified hc)
  · exact hreg (hregistered hc)
  · exact hpoll (hpolled hc)

/-- REGISTER sends the serial number of the identify response traced, or fails with nothing traced (R187). -/
theorem State.InSession.sendRegister {s : State} (h : s.InSession) (hc : s.ctl = .identified)
    (hdest : s.destAddr = 0x00) (hr : s.serialInRange = true) :
    (State.issue { s with settleCnt := 0 } 0x30 0x41 s.registerPayload .regTx).InSession := by
  have hfailed : s.ctl ≠ .failed := by simp [hc]
  rcases Nat.lt_or_ge 240 s.registerPayload.length with hlong | hfits
  · rw [State.issue_refused hlong]
    have hs : State.InSession { s with settleCnt := 0, txLen := 0 } := by
      obtain ⟨a, b, c, hsession, hid, hreg, hpoll, -⟩ := h
      exact ⟨a, b, c, hsession, hid, hreg, hpoll, fun hw => by simp [hc, Ctl.writing] at hw⟩
    exact hs.raiseFailure hfailed nofun
  · obtain ⟨a, b, c, hsession, hid, -⟩ := h
    rw [State.records_of_ne hfailed, hc] at hsession
    refine State.inSession_issue hsession hfits ?_ rfl rfl
    simp only [hid hc, hdest, sessionTrace, State.serialOf_lastResponse hr]
    rfl

/-- Every row of Table T10 keeps a legal session in order. -/
theorem State.Row.inSession {s t : State} {e : Event} (h : s.Row e t) (hlegal : s.Legal) (hs : s.InSession) :
    t.InSession := by
  have hsession := hs
  obtain ⟨a, b, c, htrace, -, -, hpoll, -⟩ := hs
  cases h with
  | sendReset hc =>
    rw [State.records_of_ne (by simp [hc]), hc] at htrace
    refine State.inSession_issue htrace (by simp) ?_ rfl rfl
    rw [hlegal.destAddr_eq_zero (.inl hc)]
    rfl
  | sendIdentify hc _ =>
    rw [State.records_of_ne (by simp [hc]), hc] at htrace
    refine State.inSession_issue htrace (by simp) ?_ rfl rfl
    simp only [hlegal.destAddr_eq_zero (.inr (.inl hc))]
    rfl
  | sendRegister hc _ hr => exact hsession.sendRegister hc (hlegal.destAddr_eq_zero (.inr (.inr hc))) hr
  | sendPoll hc =>
    rw [State.records_of_ne (by simp [hc]), hc] at htrace
    exact State.inSession_issue htrace (by simp) rfl rfl rfl
  | serialMissing hc _ _ =>
    have hcleared : State.InSession { s with settleCnt := 0 } := hsession
    exact hcleared.raiseFailure (by simp [hc]) nofun
  | telemetryShort hc _ => exact hsession.raiseFailure (by simp [hc]) fun _ => by simp [hc, Ctl.reading]
  | shortWrite hw _ | writeFails hw => exact hsession.raiseFailure (Ctl.ne_failed_of_writing hw) nofun
  | readFails hr _ => exact hsession.raiseFailure (Ctl.ne_failed_of_reading hr) nofun
  | reset => exact State.inSession_of_trace (a := []) (b := []) (c := []) rfl rfl rfl
  | startIgnored _ | settleTick _ _ | backoffTick _ _ | tickIgnored _ _ | emptyBacksOff _ _ _ => exact hsession
  | ackReset hc =>
    rw [State.records_of_ne (by simp [hc]), hc] at htrace
    exact State.inSession_of_trace rfl rfl htrace
  | ackRequest hc =>
    rcases hc with ⟨hc, rfl⟩ | ⟨hc, rfl⟩ | ⟨hc, rfl⟩ <;> rw [State.records_of_ne (by simp [hc]), hc] at htrace <;>
      exact State.inSession_of_trace rfl rfl htrace
  | byteKept hr _ _ _ _ =>
    exact State.inSession_of_trace (Ctl.checked_of_reading hr) (Ctl.writing_of_reading hr) htrace
  | byteTerminates hr _ _ _ | byteFills hr _ _ _ _ | emptyGivesUp hr _ _ =>
    apply State.InSession.readDone
    · exact State.inSession_of_trace (Ctl.checked_of_reading hr) (Ctl.writing_of_reading hr) htrace
    · exact hr
  | telemetryReceived hc _ =>
    rw [State.records_of_ne (by simp [hc]), hc] at htrace
    exact ⟨a, b, c, htrace, nofun, nofun, fun _ => hpoll (.inl hc), nofun⟩

/-- At reset no record is emitted, whatever the parameters and the coming events. -/
theorem State.inSession_reset (p : Config.Params) (events : List Event) :
    State.InSession { State.reset with params := p, inputs := events } :=
  State.inSession_of_trace (a := []) (b := []) (c := []) rfl rfl rfl

theorem State.InSession.step {s t : State} (h : s.InSession) (hlegal : s.Legal) (hs : step s = .next t) :
    t.InSession := by
  rcases step_eq_next_cases hs with rfl | ⟨e, rest, -, hrow⟩
  · exact h
  · have hw : (s.withInputs rest).InSession := h
    exact hrow.inSession (hlegal.withInputs rest) hw

/-- Settles O50: no record at reset, and every row adds the one that its session's trace has next, or none. -/
theorem everyStepKeepsTheSessionInOrder : Obligations.EveryStepKeepsTheSessionInOrder :=
  ⟨State.inSession_reset _ _, fun _ _ hlegal h hs => h.step hlegal hs⟩

/-! ### Runs -/

/-- What every step keeps, a run keeps. -/
theorem run_induction {P : State → Prop} (hstep : ∀ s t, P s → step s = .next t → P t) {k : Nat} {s t : State}
    (h : P s) (hrun : core.run k s = .next t) : P t := by
  induction k generalizing s with
  | zero =>
    cases hrun
    exact h
  | succ k ih =>
    obtain ⟨u, hs, hrunOn⟩ := exists_step_of_run_succ hrun
    exact ih (hstep s u h hs) hrunOn

/-- In `SUCCESS` the session's trace is whole (R206). -/
theorem State.InSession.trace_of_success {s : State} (h : s.InSession) (hc : s.ctl = .success) :
    ∃ a b, s.trace = sessionTrace a b s.lastResponse := by
  obtain ⟨a, b, c, htrace, -, -, hpoll, -⟩ := h
  rw [State.records_of_ne (by simp [hc]), hc] at htrace
  exact ⟨a, b, hpoll (.inr hc) ▸ htrace⟩

/-- Settles O51: the reset state is legal, delimited and in its session, and every step keeps the three together. -/
theorem everyRunFollowsTheSession : Obligations.EveryRunFollowsTheSession := by
  intro p events k s hp hrun
  have hdelimited : State.Delimited { State.reset with params := p, inputs := events } :=
    (State.delimited_iff _).mpr ⟨State.marked_of_empty rfl rfl, fun _ => rfl⟩
  obtain ⟨hlegal, hdel, hsession⟩ := run_induction (P := fun s => s.Legal ∧ s.Delimited ∧ s.InSession)
    (fun s t ⟨hl, hd, hi⟩ hs => ⟨hl.step hs, everyStepKeepsTheResponseDelimited.2 s t hd hs, hi.step hl hs⟩)
    ⟨State.legal_reset hp events, hdelimited, State.inSession_reset p events⟩ hrun
  exact ⟨hlegal, hdel, hsession, hsession.trace_of_success⟩

end Sys2Proof.Machine
end

section
/-! EveryProgressingEventNearsTheEnd: a rank that every row of Table T10 takes down but those that change nothing and
`Reset`, and a row for every state whose session has not ended (R153, R207, R260). -/

namespace Sys2Proof.Machine

/-! ### The rank of a read -/

/-- A read that just started has its whole bound left. -/
theorem State.readRank_of_start {s : State} (hcount : s.rxCount = 0) (hempty : s.emptyCnt = 0)
    (hbackoff : s.backoffCnt = 0) : s.readRank = readBound s.params := by
  simp [State.readRank, hcount, hempty, hbackoff, readBound, pollBound]

/-- A byte taken is worth more than all the empty polls that may follow it. -/
theorem State.readRank_takeByte_lt {s : State} {b : Byte} (hroom : s.rxCount.toNat < 256) (hb : s.backoffCnt = 0) :
    (s.takeByte b).readRank < s.readRank := by
  have hpolls : (s.params.retryBudget - (s.takeByte b).emptyCnt) * (s.params.backoffTicks + 1) ≤ pollBound s.params :=
    Nat.mul_le_mul_right _ (Nat.sub_le ..)
  obtain ⟨left, hleft⟩ : ∃ left, 256 - s.rxCount.toNat = left + 1 := ⟨255 - s.rxCount.toNat, by omega⟩
  have hleft' : 256 - (s.rxCount.toNat + 1) = left := by omega
  simp only [State.readRank, State.takeByte_rxCount_toNat s b hroom, State.takeByte_params, State.takeByte_backoffCnt,
    hb, hleft, hleft', Nat.succ_mul]
  omega

/-- An empty poll is worth more than the back-off it starts. -/
theorem State.readRank_backOff_lt {s : State} (hb : s.backoffCnt = 0) (hkept : s.emptyCnt + 1 < s.params.retryBudget) :
    State.readRank { s with emptyCnt := s.emptyCnt + 1, backoffCnt := s.params.backoffTicks } < s.readRank := by
  obtain ⟨left, hleft⟩ : ∃ left, s.params.retryBudget - s.emptyCnt = left + 1 :=
    ⟨s.params.retryBudget - s.emptyCnt - 1, by omega⟩
  have hleft' : s.params.retryBudget - (s.emptyCnt + 1) = left := by omega
  simp only [State.readRank, hb, hleft, hleft', Nat.succ_mul]
  omega

/-! ### The rank of a session -/

theorem State.rank_of_failed {s : State} (h : s.ctl = .failed) : s.rank = 0 := by
  simp [State.rank, h]

/-- A session that has not ended has a rank above that of its end. -/
theorem State.rank_pos {s : State} (h : s.ctl ≠ .success ∧ s.ctl ≠ .failed) : 0 < s.rank := by
  obtain ⟨hsuccess, hfailed⟩ := h
  cases hc : s.ctl with
  | success => exact absurd hc hsuccess
  | failed => exact absurd hc hfailed
  | _ =>
    simp only [State.rank, hc]
    omega

/-- In a read the rank of the session goes down with that of the read. -/
theorem State.rank_lt_of_readRank_lt {s t : State} (hr : s.ctl.reading = true) (hctl : t.ctl = s.ctl)
    (hparams : t.params = s.params) (h : t.readRank < s.readRank) : t.rank < s.rank := by
  rcases s.ctl.reading_iff.mp hr with hc | hc | hc <;> simp [State.rank, hctl, hparams, hc, h]

/-- The end of a read takes the rank below that of the read. -/
theorem State.rank_readDone_lt {s u : State} (hr : s.ctl.reading = true) (hctl : u.ctl = s.ctl)
    (hparams : u.params = s.params) : u.readDone.rank < s.rank := by
  have hrank : 0 < s.rank := State.rank_pos (by rcases s.ctl.reading_iff.mp hr with hc | hc | hc <;> simp [hc])
  rcases Nat.lt_or_ge u.rxCount.toNat 7 with hshort | hheader
  · rwa [State.readDone_of_short hshort, State.rank_of_failed rfl]
  · obtain ⟨-, -, -, hid, hreg, hpoll⟩ := State.readDone_accepted hheader
    rcases s.ctl.reading_iff.mp hr with hc | hc | hc <;> rw [hc] at hctl
    · simp only [State.rank, hid hctl, State.readDone_params, hparams, hc]
      omega
    · simp only [State.rank, hreg hctl, State.readDone_params, hparams, hc]
      omega
    · simp only [State.rank, hpoll hctl, hc]
      omega

/-- A request's write is worth more than the whole read that it starts. -/
theorem State.rank_lt_of_started {s t : State}
    (hctl : (s.ctl = .idTx ∧ t.ctl = .idRx) ∨ (s.ctl = .regTx ∧ t.ctl = .regRx) ∨ (s.ctl = .pollTx ∧ t.ctl = .pollRx))
    (hparams : t.params = s.params) (hread : t.readRank = readBound t.params) : t.rank < s.rank := by
  rcases hctl with ⟨hs, ht⟩ | ⟨hs, ht⟩ | ⟨hs, ht⟩ <;>
    simp only [State.rank, hs, ht, hread, hparams] <;> omega

/-- A failure ends a session that has not ended. -/
theorem State.rank_raiseFailure_lt {s u : State} {reason : FailReason} (h : s.ctl ≠ .success ∧ s.ctl ≠ .failed) :
    (u.raiseFailure reason).rank < s.rank := by
  rw [State.rank_of_failed rfl]
  exact State.rank_pos h

/-- A command's write goes on to its own state, or fails the session where its payload is refused (R117). -/
theorem State.rank_issue_cases (s : State) (control function : Byte) (payload : List Byte) (next : Ctl) :
    (s.issue control function payload next).rank = State.rank { s with ctl := next }
      ∨ (s.issue control function payload next).rank = 0 := by
  rcases Nat.lt_or_ge 240 payload.length with hlong | hfits
  · exact .inr (by rw [State.issue_refused hlong, State.rank_of_failed rfl])
  · exact .inl (by rw [State.issue_ok hfits]; rfl)

/-- The row of an event that moves the session on takes it nearer its end. -/
theorem State.Row.rank_lt {s t : State} {e : Event} (h : s.Row e t) (hp : s.progresses e = true) : t.rank < s.rank := by
  cases h with
  | sendReset hc =>
    rcases State.rank_issue_cases s 0x30 0x44 [] .rstTx with h | h <;> rw [h] <;> simp [State.rank, hc]
  | sendIdentify hc h1 | sendRegister hc h1 _ =>
    rcases State.rank_issue_cases { s with settleCnt := 0 } _ _ _ _ with h | h <;> rw [h] <;> simp [State.rank, hc, h1]
  | sendPoll hc =>
    rcases State.rank_issue_cases { s with destAddr := 0x01 } 0x31 0x42 [] .pollTx with h | h <;> rw [h] <;>
      simp [State.rank, hc]
  | serialMissing hc _ _ | telemetryShort hc _ => exact State.rank_raiseFailure_lt (by simp [hc])
  | shortWrite hw _ | writeFails hw =>
    exact State.rank_raiseFailure_lt ⟨fun hc => by simp [hc, Ctl.writing] at hw, Ctl.ne_failed_of_writing hw⟩
  | readFails hr _ =>
    exact State.rank_raiseFailure_lt ⟨fun hc => by simp [hc, Ctl.reading] at hr, Ctl.ne_failed_of_reading hr⟩
  | startIgnored hc => simp [State.progresses, hc] at hp
  | reset => simp [State.progresses] at hp
  | tickIgnored hset hread =>
    simp only [State.progresses, Bool.and_eq_true, Bool.or_eq_true, decide_eq_true_eq] at hp
    obtain ⟨-, ⟨hs, hpos⟩ | ⟨hr, hpos⟩⟩ := hp
    · exact absurd (hset hs) (Nat.ne_of_gt hpos)
    · exact absurd (hread hr) (Nat.ne_of_gt hpos)
  | settleTick hs h1 =>
    rcases s.ctl.settling_iff.mp hs with hc | hc <;> simp only [State.rank, hc] <;> omega
  | backoffTick hr hpos => exact State.rank_lt_of_readRank_lt hr rfl rfl (by simp [State.readRank]; omega)
  | ackReset hc =>
    simp only [State.rank, hc]
    omega
  | ackRequest hc =>
    apply State.rank_lt_of_started
    · exact hc
    · rfl
    · exact State.readRank_of_start rfl rfl rfl
  | byteKept hr hb hroom _ _ => exact State.rank_lt_of_readRank_lt hr rfl rfl (State.readRank_takeByte_lt hroom hb)
  | emptyBacksOff hr hb hkept => exact State.rank_lt_of_readRank_lt hr rfl rfl (State.readRank_backOff_lt hb hkept)
  | byteTerminates hr _ _ _ | byteFills hr _ _ _ _ | emptyGivesUp hr _ _ => exact State.rank_readDone_lt hr rfl rfl
  | telemetryReceived hc _ => simp [State.rank, hc]

/-- The row of any other event but `Reset` changes nothing. -/
theorem State.Row.eq_of_not_progresses {s t : State} {e : Event} (h : s.Row e t) (he : e ≠ .reset)
    (hp : s.progresses e = false) : t = s := by
  have ha := h.admits
  cases h with
  | startIgnored _ | tickIgnored _ _ => rfl
  | reset => exact absurd rfl he
  | sendReset hc => simp [State.progresses, ha, hc] at hp
  | sendIdentify hc h1 | sendRegister hc h1 _ | serialMissing hc h1 _ =>
    simp [State.progresses, ha, hc, h1, Ctl.settling] at hp
  | settleTick hs h1 => simp [State.progresses, ha, hs, Nat.zero_lt_of_lt h1] at hp
  | backoffTick hr hpos => simp [State.progresses, ha, hr, hpos] at hp
  | _ => simp [State.progresses, ha] at hp

/-! ### An event that moves the session on -/

/-- A session that has not ended waits for an answer, a counter or its own step, or has not begun. -/
theorem State.Legal.exists_progress {s : State} (h : s.Legal) (hend : s.ctl ≠ .success ∧ s.ctl ≠ .failed) :
    ∃ e, s.progresses e = true := by
  obtain ⟨hsuccess, hfailed⟩ := hend
  have htick : s.ctl.settling = true → s.progresses .tick = true := fun hs => by
    simpa [State.progresses, State.admits, hs] using .inl (h.settlePos hs)
  have hread : s.ctl.reading = true → ∃ e, s.progresses e = true := fun hr => by
    rcases Nat.eq_zero_or_pos s.backoffCnt with hb | hb
    · exact ⟨.rxEmpty, by simp [State.progresses, State.admits, hr, hb]⟩
    · exact ⟨.tick, by simp [State.progresses, State.admits, hr, hb]⟩
  cases hc : s.ctl with
  | idle => exact ⟨.start, by simp [State.progresses, State.admits, hc]⟩
  | rstTx | idTx | regTx | pollTx => exact ⟨.writeErr, by simp [State.progresses, State.admits, hc, Ctl.writing]⟩
  | reset | identified => exact ⟨.tick, htick (by rw [hc]; rfl)⟩
  | idRx | regRx | pollRx => exact hread (by rw [hc]; rfl)
  | registered | polled => exact ⟨.step, by simp [State.progresses, State.admits, hc, Ctl.stepping]⟩
  | success => exact absurd hc hsuccess
  | failed => exact absurd hc hfailed

theorem State.admits_of_progresses {s : State} {e : Event} (h : s.progresses e = true) : s.admits e = true :=
  (Bool.and_eq_true_iff.mp h).1

/-- Settles O57: the rows take the rank down or change nothing, and a legal session that has not ended has an event that
moves it on, which it steps on because it admits it. -/
theorem everyProgressingEventNearsTheEnd : Obligations.EveryProgressingEventNearsTheEnd := by
  refine ⟨fun s t e rest _ hi hs => ?_, fun s h hsuccess hfailed => ?_⟩
  · have hrow := State.row_of_step hi hs
    exact ⟨fun hp => hrow.rank_lt hp, fun hp he => hrow.eq_of_not_progresses he hp⟩
  · obtain ⟨e, hp⟩ := h.exists_progress ⟨hsuccess, hfailed⟩
    obtain ⟨-, -, hstep⟩ := legalStatesStepOnAdmittedEvents _ (h.withInputs [e])
    obtain ⟨t, hs, -⟩ := hstep e [] rfl (State.admits_of_progresses hp)
    exact ⟨e, t, hp, hs⟩

end Sys2Proof.Machine
end

section
/-! The Session Controller's rows: the settle delays and the commands that end them, the checks of a completed read and
of the telemetry, and the end of a session (R171..R205). -/

namespace Sys2Proof.Machine

/-! ### A settle delay -/

/-- The acknowledged reset frame starts the first settle delay, with nothing outstanding (R172). -/
theorem step_ackReset {s : State} {rest : List Event} (hc : s.ctl = .rstTx)
    (hi : s.inputs = .writeAck s.txLen.toNat :: rest) :
    step s = .next { s with inputs := rest, settleCnt := s.params.settleTicks, ctl := .reset } :=
  step_eq_of_row hi (.ackReset hc)

/-- Settles O28: the row of an acknowledged reset frame. -/
theorem acknowledgedResetStartsTheSettleDelay : Obligations.AcknowledgedResetStartsTheSettleDelay := by
  rintro s n rest hc hi rfl
  exact ⟨_, step_ackReset hc hi, rfl, rfl⟩

/-- The command that a settle delay's end runs (R177, R187). -/
def Ctl.settleCommand (c : Ctl) : Instr :=
  if c = .reset then .identify else .register

/-- A settle `Tick` that is not the last counts down and changes nothing else (R174). -/
theorem step_settleTick {s : State} {rest : List Event} (hs : s.ctl.settling = true) (h1 : 1 < s.settleCnt)
    (hi : s.inputs = .tick :: rest) : step s = .next { s with inputs := rest, settleCnt := s.settleCnt - 1 } :=
  step_eq_of_row hi (.settleTick hs h1)

/-- The last settle `Tick` runs the delay's command (R174, R177, R187). -/
theorem step_settleEnd {s : State} {rest : List Event} (hs : s.ctl.settling = true) (h1 : s.settleCnt = 1)
    (hi : s.inputs = .tick :: rest) : step s = exec s.ctl.settleCommand (s.withInputs rest) := by
  have hfetch : fetch (s.withInputs rest) .tick = some (encode s.ctl.settleCommand) := by
    rcases s.ctl.settling_iff.mp hs with hc | hc <;>
      simp [fetch, hc, h1, Ctl.settleCommand, encode, Instr.control, Instr.function]
  obtain ⟨t, ht⟩ := exists_exec_eq_next s.ctl.settleCommand (s.withInputs rest)
  rw [step_of_inputs_cons hi, ht, stepOn_of_exec _ hfetch ht]

/-- The commands that end a settle delay clear its counter (R177, R187). -/
theorem settleCnt_of_exec_settleCommand {c : Ctl} {s t : State} (h : exec c.settleCommand s = .next t) :
    t.settleCnt = 0 := by
  unfold Ctl.settleCommand at h
  split at h
  · cases h
    simp
  · cases hr : s.serialInRange
    · have hfail : exec .register s = .next (State.raiseFailure { s with settleCnt := 0 } .serialOutOfRange) :=
        if_neg (by simp [hr])
      rw [hfail] at h
      cases h
      rfl
    · rw [execRegister_of_serialInRange hr] at h
      cases h
      simp

/-- Settles O31: the row of a settle `Tick` that is not the last, the command that the last one runs, and the positive
counter of a legal settle delay. -/
theorem settleTickCountsDown : Obligations.SettleTickCountsDown := by
  intro s rest hs hi
  refine ⟨fun h1 => step_settleTick hs h1 hi, fun h1 => ?_, fun h => Nat.ne_of_gt (h.settlePos hs)⟩
  have hend := step_settleEnd hs h1 hi
  obtain ⟨t, ht⟩ := exists_exec_eq_next s.ctl.settleCommand (s.withInputs rest)
  exact ⟨hend, t, hend.trans ht, settleCnt_of_exec_settleCommand ht⟩

/-- A run that has come to a state goes on from it. -/
theorem run_add_of_run_eq_next {j k : Nat} {s t : State} (h : core.run j s = .next t) :
    core.run (j + k) s = core.run k t := by
  induction j generalizing s with
  | zero =>
    cases h
    rw [Nat.zero_add]
  | succ j ih =>
    obtain ⟨u, hs, hrun⟩ := exists_step_of_run_succ h
    rw [Nat.succ_add, run_of_step_eq_next hs, ih hrun]

theorem run_one_of_step {s t : State} (h : step s = .next t) : core.run 1 s = .next t :=
  run_of_step_eq_next h

/-- Until its last `Tick` a settle delay changes nothing but its counter (R174). -/
theorem run_settleTicks {s : State} {k : Nat} {rest : List Event} (hs : s.ctl.settling = true)
    (hcnt : s.settleCnt = k + 1) (hi : s.inputs = List.replicate (k + 1) .tick ++ rest) {j : Nat} (hj : j ≤ k) :
    core.run j s =
      .next { s with settleCnt := k + 1 - j, inputs := List.replicate (k + 1 - j) .tick ++ rest } := by
  induction j with
  | zero => rw [run_zero, Nat.sub_zero, ← hi, ← hcnt]
  | succ j ih =>
    obtain ⟨left, hleft⟩ : ∃ left, k + 1 - j = left + 1 := ⟨k - j, by omega⟩
    have hleft' : k + 1 - (j + 1) = left := by omega
    rw [run_add_of_run_eq_next (ih (by omega)), hleft', hleft]
    exact run_one_of_step (step_settleTick hs (by show 1 < left + 1; omega) rfl)

/-- The last `Tick` of a settle delay runs its command (R174, R177, R187). -/
theorem run_settleDelay {s : State} {k : Nat} {rest : List Event} (hs : s.ctl.settling = true)
    (hcnt : s.settleCnt = k + 1) (hi : s.inputs = List.replicate (k + 1) .tick ++ rest) :
    core.run (k + 1) s = exec s.ctl.settleCommand { s with settleCnt := 1, inputs := rest } := by
  have hlast : k + 1 - k = 1 := by omega
  have hrun := run_settleTicks hs hcnt hi (le_refl k)
  rw [hlast] at hrun
  rw [run_add_of_run_eq_next hrun]
  obtain ⟨t, ht⟩ := exists_exec_eq_next s.ctl.settleCommand { s with settleCnt := 1, inputs := rest }
  rw [ht]
  exact run_one_of_step
    ((step_settleEnd (s := { s with settleCnt := 1, inputs := .tick :: rest }) hs rfl rfl).trans ht)

/-- Settles O32: the delay's ticks one by one and its last one, and then both of them after the acknowledged reset
frame. -/
theorem settleDelayLastsItsTicks : Obligations.SettleDelayLastsItsTicks := by
  refine ⟨fun s k rest hs hcnt hi => ⟨fun j => run_settleTicks hs hcnt hi, run_settleDelay hs hcnt hi⟩,
    fun s rest hp hc hi => ?_⟩
  obtain ⟨⟨hticks, -, -⟩, -, hduration⟩ := hp
  obtain ⟨k, hk⟩ : ∃ k, s.params.settleTicks = k + 1 := ⟨s.params.settleTicks - 1, by omega⟩
  have hstart := run_one_of_step (step_ackReset hc hi)
  rw [hk] at hstart ⊢
  refine ⟨fun j hj => ?_, ?_, hk ▸ hduration⟩
  · exact ⟨_, (run_add_of_run_eq_next hstart).trans (run_settleTicks rfl rfl rfl (Nat.le_of_lt_succ hj)), rfl, rfl⟩
  · exact ⟨_, (run_add_of_run_eq_next hstart).trans (run_settleDelay rfl rfl rfl), State.issue_nil_ctl _ _ _ _⟩

/-! ### The handshake -/

/-- Settles O14: the two rows that issue RESET and IDENTIFY, with the address still unassigned. -/
theorem handshakeRowsSendTheirFrames : Obligations.HandshakeRowsSendTheirFrames := by
  refine fun s rest h => ⟨fun hc hi => ?_, fun hc h1 hi => ?_⟩
  · have hdest := h.destAddr_eq_zero (.inl hc)
    obtain ⟨t, ht, heq, hframe, hreq, -⟩ := resetCommandBuildsItsFrame (s.withInputs rest)
    have hrow : step s = exec .reset (s.withInputs rest) := step_eq_of_row hi (.sendReset hc)
    refine ⟨t, hrow.trans ht, ht, hdest, by rw [heq]; rfl, heq, ?_⟩
    rw [hreq, hframe, State.withInputs_destAddr, hdest]
    decide
  · have hdest := h.destAddr_eq_zero (.inr (.inl hc))
    obtain ⟨t, ht, heq, hframe, hreq, -⟩ := identifyCommandBuildsItsFrame (s.withInputs rest)
    have hrow : step s = exec .identify (s.withInputs rest) := step_eq_of_row hi (.sendIdentify hc h1)
    refine ⟨t, hrow.trans ht, ht, hdest, by rw [heq]; rfl, heq, ?_⟩
    rw [hreq, hframe, State.withInputs_destAddr, hdest]
    decide

/-! ### REGISTER at the end of the second settle delay -/

/-- REGISTER with serial bytes missing (R190). -/
theorem execRegister_of_missing {s : State} (h : s.rxCount.toNat < 7 + (s.rxByte 6).toNat) :
    exec .register s = .next (State.raiseFailure { s with settleCnt := 0 } .serialOutOfRange) :=
  if_neg fun hr => absurd (s.serialInRange_iff.mp hr) (Nat.not_le.mpr h)

/-- REGISTER with more serial bytes than a payload holds (R191). -/
theorem execRegister_of_oversized {s : State} (hr : 7 + (s.rxByte 6).toNat ≤ s.rxCount.toNat)
    (hN : 240 ≤ (s.rxByte 6).toNat) :
    exec .register s = .next (State.raiseFailure { s with settleCnt := 0, txLen := 0 } .payloadTooLarge) := by
  have hlen := s.registerPayload_length
  rw [execRegister_of_serialInRange (s.serialInRange_iff.mpr hr), State.issue_refused (by omega)]

/-- In `IDENTIFIED` the last settle `Tick` runs REGISTER (R187). -/
theorem step_register {s : State} {rest : List Event} (hc : s.ctl = .identified) (h1 : s.settleCnt = 1)
    (hi : s.inputs = .tick :: rest) : step s = exec .register (s.withInputs rest) := by
  have hend := step_settleEnd (by rw [hc]; rfl) h1 hi
  rwa [hc] at hend

/-- Settles O17: the range check of REGISTER. -/
theorem registerFailsOnMissingSerialBytes : Obligations.RegisterFailsOnMissingSerialBytes := by
  intro s h
  refine ⟨_, execRegister_of_missing h, rfl, rfl, fun hc => congrArg Ctl.failCode hc, fun hc h1 rest hi => ?_⟩
  exact (step_register hc h1 hi).trans (execRegister_of_missing (s := s.withInputs rest) h)

/-- Settles O18: the size check of REGISTER, which needs as many bytes received. -/
theorem registerFailsOnOversizedSerial : Obligations.RegisterFailsOnOversizedSerial := by
  intro s hr hN
  refine ⟨by omega, _, execRegister_of_oversized hr hN, rfl, rfl, fun hc => congrArg Ctl.failCode hc,
    fun hc h1 rest hi => ?_⟩
  exact (step_register hc h1 hi).trans (execRegister_of_oversized (s := s.withInputs rest) hr hN)

/-- Settles O15: the range check of REGISTER, and its write where it passes. -/
theorem secondSettleEndRegistersOrFails : Obligations.SecondSettleEndRegistersOrFails := by
  refine fun s rest hc h1 hi => ⟨fun hmissing => ?_, fun hr hN => ?_⟩
  · refine ⟨_, (step_register hc h1 hi).trans (execRegister_of_missing (s := s.withInputs rest) hmissing), ?_, rfl⟩
    simp [State.raiseFailure, hc, Ctl.failCode, State.withInputs]
  · obtain ⟨t, ht, heq, hlen, hframe, -, -, -, hreq, -⟩ := registerCommandBuildsItsFrame (s.withInputs rest) hr hN
    refine ⟨t, (step_register hc h1 hi).trans ht, ht, heq, hlen, ?_, fun h => h.destAddr_eq_zero (.inr (.inr hc))⟩
    rw [hreq, hframe]
    rfl

/-! ### The checks of a response -/

/-- Settles O34: a response with its header is accepted, a shorter one fails, by the reading state. -/
theorem completedReadIsCheckedByItsCount : Obligations.CompletedReadIsCheckedByItsCount := by
  intro s
  have accepted (h : 7 ≤ s.rxCount.toNat) := State.readDone_of_header h
  have failed (h : s.rxCount.toNat < 7) := State.readDone_of_short h
  refine ⟨fun h hc => ?_, fun h hc => ?_, fun h hc => ?_, fun h hc => ?_, fun h hc => ?_, fun h hc => ?_⟩
  · simp only [accepted h, State.acceptResponse, State.emit_ctl, State.emit_params, hc]
  · simp only [failed h, State.raiseFailure, State.emit_ctl, Ctl.failCode, hc]
  · simp only [accepted h, State.acceptResponse, State.emit_ctl, hc]
  · simp only [failed h, State.raiseFailure, State.emit_ctl, Ctl.failCode, hc]
  · simp only [accepted h, State.acceptResponse, State.emit_ctl, hc]
  · simp only [failed h, State.raiseFailure, State.emit_ctl, Ctl.failCode, hc]

/-- Settles O39: the two rows of the poll's check. -/
theorem polledStepChecksTheTelemetryLength : Obligations.PolledStepChecksTheTelemetryLength := by
  refine fun s rest hc hi => ⟨fun h => step_eq_of_row hi (.telemetryReceived hc h), fun h => ?_⟩
  rw [step_eq_of_row hi (.telemetryShort hc h)]
  simp [State.raiseFailure, hc, Ctl.failCode, State.withInputs]

/-! ### The end of a session -/

/-- Settles O40: of the events admitted in a terminal state, `Start` and `Tick` are ignored by their rows. -/
theorem terminalStatesAreLeftByResetOnly : Obligations.TerminalStatesAreLeftByResetOnly := by
  intro s e rest hc hi
  have hend : s.ctl.writing = false ∧ s.ctl.reading = false ∧ s.ctl.settling = false ∧ s.ctl.stepping = false
      ∧ s.ctl ≠ .idle := by rcases hc with hc | hc <;> rw [hc] <;> decide
  obtain ⟨hw, hr, hs, hstep, hidle⟩ := hend
  refine ⟨by simp [State.req, hw, hr], ?_, fun hstart htick hreset => ?_⟩
  · rintro (rfl | rfl)
    · exact step_eq_of_row hi (.startIgnored hidle)
    · exact step_eq_of_row hi (.tickIgnored (by simp [hs]) (by simp [hr]))
  · rw [step_refused_iff hi]
    cases e with
    | start | tick | reset => contradiction
    | writeAck _ | writeErr | rxByte _ | rxEmpty | rxErr | step => simp [State.admits, hw, hr, hstep]

/-- Settles O41: the ten words, each of two bytes, and the 27 bytes that a legal `SUCCESS` has received. -/
theorem telemetryWordsAreBigEndianViews : Obligations.TelemetryWordsAreBigEndianViews := by
  refine fun s hc => ⟨(List.range 10).map s.teleWord, if_pos hc, by simp, fun i hi => ?_, fun h a _ ha => ?_⟩
  · simp [hi, State.teleWord, beWord_toNat]
  · have hcount := h.rxTelemetry hc
    obtain ⟨b, hb⟩ := Option.isSome_iff_exists.mp (h.rxWritten a (by omega))
    rw [hb, State.rxByte_of_read? hb]

end Sys2Proof.Machine
end

section
/-! Session failures (60_exceptions.md): what failure entry writes, which rows of Table T10 raise one and in
which state, and for each row of Table T12 a legal state whose next step comes to it (R220..R226). -/

namespace Sys2Proof.Machine

/-! ### Failure entry -/

/-- The codes of Table T11: 3 in the poll step, 2 elsewhere (R224). -/
theorem Ctl.failCode_eq (c : Ctl) : c.failCode = if c = .pollTx ∨ c = .pollRx ∨ c = .polled then 3 else 2 := by
  cases c <;> rfl

/-- A write that fails does so with the code of the poll step or with that of the others (Table T11). -/
theorem Ctl.failCode_of_writing {c : Ctl} (h : c.writing = true) : c.failCode = if c = .pollTx then 3 else 2 := by
  rcases c.writing_iff.mp h with rfl | rfl | rfl | rfl <;> rfl

/-- Settles O44: the four fields with their code, and what `FAILED` shows. -/
theorem failureEntryWritesItsRecord : Obligations.FailureEntryWritesItsRecord := by
  intro s reason
  refine ⟨?_, rfl, rfl, rfl⟩
  rw [← Ctl.failCode_eq]
  rfl

/-- Settles O30: the row of a write error and that of a wrong count. -/
theorem failedWriteRaisesWriteError : Obligations.FailedWriteRaisesWriteError := by
  intro s e rest hw hi he
  rw [← Ctl.failCode_of_writing hw]
  rcases he with rfl | ⟨n, hn, rfl⟩
  · exact step_eq_of_row hi (.writeFails hw)
  · exact step_eq_of_row hi (.shortWrite hw hn)

/-! ### The rows that raise a failure -/

/-- A command's write fails the session only where its payload is refused, with no other change than `tx_len` (R117). -/
theorem State.issue_of_failed {s : State} {control function : Byte} {payload : List Byte} {next : Ctl}
    (hn : next ≠ .failed) (h : (s.issue control function payload next).ctl = .failed) :
    s.issue control function payload next = State.raiseFailure { s with txLen := 0 } .payloadTooLarge := by
  rcases Nat.lt_or_ge 240 payload.length with hlong | hfits
  · exact State.issue_refused hlong
  · rw [State.issue_ok hfits] at h
    exact absurd h hn

/-- The end of a read fails the session only on a short response, with no other change than its trace record (R150). -/
theorem State.readDone_of_failed {s : State} (hr : s.ctl.reading = true) (h : s.readDone.ctl = .failed) :
    s.readDone = (s.emit (.rx s.lastResponse)).raiseFailure .shortResponse := by
  rcases Nat.lt_or_ge s.rxCount.toNat 7 with hshort | hheader
  · exact State.readDone_of_short hshort
  · obtain ⟨-, -, -, hid, hreg, hpoll⟩ := State.readDone_accepted hheader
    rcases s.ctl.reading_iff.mp hr with hc | hc | hc
    · simp [hid hc] at h
    · simp [hreg hc] at h
    · simp [hpoll hc] at h

/-- A row that fails the session raises the failure in the row's own state, with the address kept, and with the response
kept but by a byte received (R226). -/
theorem State.Row.exists_raiseFailure {s t : State} {e : Event} (h : s.Row e t) (hs : s.ctl ≠ .failed)
    (ht : t.ctl = .failed) :
    ∃ u reason, t = State.raiseFailure u reason ∧ u.ctl = s.ctl ∧ u.destAddr = s.destAddr
      ∧ ((∀ b, e ≠ .rxByte b) → u.lastResponse = s.lastResponse) := by
  cases h with
  | sendReset _ | sendIdentify _ _ | sendPoll _ => simp at ht
  | sendRegister _ _ _ => exact ⟨_, _, State.issue_of_failed nofun ht, rfl, rfl, fun _ => rfl⟩
  | serialMissing _ _ _ | shortWrite _ _ | writeFails _ | readFails _ _ | telemetryShort _ _ =>
    exact ⟨_, _, rfl, rfl, rfl, fun _ => rfl⟩
  | startIgnored _ | settleTick _ _ | backoffTick _ _ | tickIgnored _ _ | byteKept _ _ _ _ _ | emptyBacksOff _ _ _ =>
    exact absurd ht hs
  | reset | ackReset _ | telemetryReceived _ _ => cases ht
  | ackRequest hc => rcases hc with ⟨-, rfl⟩ | ⟨-, rfl⟩ | ⟨-, rfl⟩ <;> cases ht
  | byteTerminates hr _ _ _ | byteFills hr _ _ _ _ =>
    exact ⟨_, _, State.readDone_of_failed hr ht, rfl, rfl, fun hne => absurd rfl (hne _)⟩
  | emptyGivesUp hr _ _ => exact ⟨_, _, State.readDone_of_failed hr ht, rfl, rfl, fun _ => rfl⟩

/-- Settles O45: the row that fails the session raises the failure in its own state, and no timer runs in a legal
`FAILED`. -/
theorem failingStepRecordsItsState : Obligations.FailingStepRecordsItsState := by
  intro s t h hstep hs ht
  have htlegal := h.step hstep
  have hbackoff : t.backoffCnt = 0 := htlegal.backoffZero (by rw [ht]; rfl)
  have hsettle : t.settleCnt = 0 := htlegal.settleZero (by rw [ht]; rfl)
  rcases step_eq_next_cases hstep with rfl | ⟨e, rest, hi, hrow⟩
  · exact absurd ht hs
  · obtain ⟨u, reason, rfl, hctl, hdest, hresponse⟩ := hrow.exists_raiseFailure hs ht
    refine ⟨hctl, hbackoff, hsettle, hdest, fun e' rest' hi' hne => ?_⟩
    obtain ⟨rfl, rfl⟩ : e' = e ∧ rest' = rest := by simpa [hi'] using hi
    exact hresponse hne

/-! ### A legal state before each failure -/

/-- A session in a given state with `n` bytes received, each `0xF0`, so that an identify response declares 240 serial
bytes; a settle delay is at its last tick, and the first empty poll ends a read. -/
def awaiting (c : Ctl) (n : Nat) (events : List Event) : State :=
  { State.reset with
    ctl := c
    destAddr := if c.addressAssigned then 1 else 0
    rxBuf := Memory.writeBytes [] 0 (List.replicate n 0xF0)
    rxCount := BitVec.ofNat 9 n
    settleCnt := if c.settling then 1 else 0
    params := { Config.vectorParams with retryBudget := 1 }
    inputs := events }

section
variable {c : Ctl} {n : Nat} {events : List Event}

theorem awaiting_rxCount_toNat (hn : n ≤ 256) : (awaiting c n events).rxCount.toNat = n := by
  show (BitVec.ofNat 9 n).toNat = n
  rw [BitVec.toNat_ofNat]
  omega

theorem awaiting_rxByte {i : Nat} (hi : i < n) : (awaiting c n events).rxByte i = 0xF0 := by
  apply State.rxByte_of_read?
  show (Memory.writeBytes [] 0 (List.replicate n 0xF0)).read? i = some 0xF0
  simp [Memory.read?_writeBytes, hi]

/-- Such a session is legal where as many bytes are received as its state asks for. -/
theorem awaiting_legal (hc : c ≠ .failed) (hn : n ≤ 256) (hfits : (awaiting c n events).CountFits) :
    (awaiting c n events).Legal := by
  have hparams : Config.Params.Runs { Config.vectorParams with retryBudget := 1 } := by decide
  have hresponse : (awaiting c n events).ResponseHeld := by
    rw [State.ResponseHeld, awaiting_rxCount_toNat hn]
    have hheld : (awaiting c n events).rxBuf.Holds (List.replicate n (0xF0 : Byte)).length :=
      Memory.holds_writeBytes Memory.holds_nil.1 (by simpa using hn)
    rw [List.length_replicate] at hheld
    exact ⟨hheld, hn⟩
  have hdest : (awaiting c n events).DestFits := by
    rw [State.DestFits, State.stage_of_ne hc]
    rfl
  have hsettle : (awaiting c n events).SettleFits := by
    cases hs : c.settling <;> simp [State.SettleFits, awaiting, hs, Config.vectorParams]
  exact (State.legal_iff _).mpr ⟨hparams, ⟨Memory.holds_nil, Nat.zero_le _⟩, hresponse, hfits, hdest, hsettle,
    State.backoffFits_of_zero rfl, ⟨Nat.zero_le _, fun _ => Nat.one_pos⟩,
    ⟨fun _ => ⟨rfl, rfl, rfl⟩, fun hf => absurd hf hc⟩⟩

theorem awaiting_legal_of_writing (hw : c.writing = true) : (awaiting c 0 events).Legal :=
  awaiting_legal (Ctl.ne_failed_of_writing hw) (by omega) (State.countFits_of_ctl (by
    rcases c.writing_iff.mp hw with rfl | rfl | rfl | rfl <;> exact ⟨rfl, rfl⟩))

theorem awaiting_legal_of_reading (hr : c.reading = true) : (awaiting c 0 events).Legal :=
  awaiting_legal (Ctl.ne_failed_of_reading hr) (by omega) (State.countFits_of_reading hr (by
    rw [awaiting_rxCount_toNat (by omega)]
    omega))

/-- An accepted response holds its header. -/
theorem awaiting_legal_of_header (hc : c = .identified ∨ c = .polled) (h7 : 7 ≤ n) (hn : n ≤ 256) :
    (awaiting c n events).Legal := by
  have hcount : 7 ≤ (awaiting c n events).rxCount.toNat := by rwa [awaiting_rxCount_toNat hn]
  rcases hc with rfl | rfl
  · exact awaiting_legal nofun hn ⟨nofun, fun _ => hcount, nofun⟩
  · exact awaiting_legal nofun hn ⟨nofun, fun _ => hcount, nofun⟩

end

/-! ### The rows of Table T12 -/

/-- A legal session comes to the failure by its next step. -/
def FailureReached (failure : Ctl × FailReason × BitVec 2) : Prop :=
  ∃ (s t : State) (e : Event), s.Legal ∧ s.ctl = failure.1 ∧ s.inputs = [e]
    ∧ step s = .next t ∧ t.ctl = .failed ∧ (t.failState, t.failReason, t.failCode) = failure

/-- A row that raises a failure in a legal state reaches that failure. -/
theorem failureReached_of_row {c : Ctl} {n : Nat} {e : Event} {u : State} {reason : FailReason}
    (h : (awaiting c n [e]).Legal) (hrow : (awaiting c n []).Row e (u.raiseFailure reason)) (hu : u.ctl = c) :
    FailureReached (c, reason, c.failCode) :=
  ⟨awaiting c n [e], _, e, h, rfl, rfl, step_eq_of_row rfl hrow, rfl, by rw [← hu]; rfl⟩

theorem failureReached_writeError {c : Ctl} (hw : c.writing = true) : FailureReached (c, .writeError, c.failCode) :=
  failureReached_of_row (awaiting_legal_of_writing hw) (.writeFails hw) rfl

theorem failureReached_readError {c : Ctl} (hr : c.reading = true) : FailureReached (c, .readError, c.failCode) :=
  failureReached_of_row (awaiting_legal_of_reading hr) (.readFails hr rfl) rfl

/-- A read given up with no byte received (R222 (a)). -/
theorem failureReached_shortRead {c : Ctl} (hr : c.reading = true) :
    FailureReached (c, .shortResponse, c.failCode) := by
  have hshort : State.rxCount { awaiting c 0 [] with emptyCnt := 1 } = 0 := rfl
  have hrow := State.Row.emptyGivesUp (s := awaiting c 0 []) hr rfl (Nat.le_refl 1)
  rw [State.readDone_of_short (by rw [hshort]; decide)] at hrow
  exact failureReached_of_row (awaiting_legal_of_reading hr) hrow rfl

/-- 240 serial bytes declared, and none received (R190). -/
theorem failureReached_serialOutOfRange : FailureReached (.identified, .serialOutOfRange, 2) := by
  have hrange : (awaiting .identified 7 []).serialInRange = false := by
    rw [Bool.eq_false_iff, ne_eq, State.serialInRange_iff, awaiting_rxByte (by omega),
      awaiting_rxCount_toNat (by omega)]
    decide
  exact failureReached_of_row (awaiting_legal_of_header (.inl rfl) (by omega) (by omega))
    (.serialMissing rfl rfl hrange) rfl

/-- 240 serial bytes declared and received (R191). -/
theorem failureReached_payloadTooLarge : FailureReached (.identified, .payloadTooLarge, 2) := by
  have hbyte : (awaiting .identified 247 []).rxByte 6 = 0xF0 := awaiting_rxByte (by omega)
  have hrange : (awaiting .identified 247 []).serialInRange = true := by
    rw [State.serialInRange_iff, hbyte, awaiting_rxCount_toNat (by omega)]
    decide
  have hlong : 240 < (awaiting .identified 247 []).registerPayload.length := by
    rw [State.registerPayload_length, hbyte]
    decide
  have hrow := State.Row.sendRegister (s := awaiting .identified 247 []) rfl rfl hrange
  rw [State.issue_refused hlong] at hrow
  exact failureReached_of_row (awaiting_legal_of_header (.inl rfl) (by omega) (by omega)) hrow rfl

/-- A poll response with its header and no telemetry (R222 (b)). -/
theorem failureReached_shortTelemetry : FailureReached (.polled, .shortResponse, 3) :=
  failureReached_of_row (awaiting_legal_of_header (n := 7) (.inr rfl) (by omega) (by omega))
    (.telemetryShort rfl (by decide)) rfl

/-- Settles O46: a legal `FAILED` records a row of Table T12, and each row is reached, here in the table's order. -/
theorem failuresAreThoseOfTableT12 : Obligations.FailuresAreThoseOfTableT12 := by
  refine ⟨fun s t h hstep ht => (h.step hstep).record ht, fun row hrow => ?_⟩
  show FailureReached row
  revert row
  simp only [failureTable, List.forall_mem_cons]
  exact ⟨failureReached_writeError (c := .rstTx) rfl, failureReached_writeError (c := .idTx) rfl,
    failureReached_readError (c := .idRx) rfl, failureReached_shortRead (c := .idRx) rfl,
    failureReached_serialOutOfRange, failureReached_payloadTooLarge, failureReached_writeError (c := .regTx) rfl,
    failureReached_readError (c := .regRx) rfl, failureReached_shortRead (c := .regRx) rfl,
    failureReached_writeError (c := .pollTx) rfl, failureReached_readError (c := .pollRx) rfl,
    failureReached_shortRead (c := .pollRx) rfl, failureReached_shortTelemetry, nofun⟩

end Sys2Proof.Machine
end

section
/-! StatusAndLinkOwnAfterReset: Table T4 fixes every register STATUS shows, so STATUS and `link_own` read as they do at
power-on (R252, from R37 and R45). -/

namespace Sys2Proof.Machine

theorem Ctl.code_eq_zero_iff (c : Ctl) : c.code = 0 ↔ c = .idle := by
  cases c <;> simp [Ctl.code]

theorem FailReason.code_eq_zero_iff (r : FailReason) : r.code = 0 ↔ r = .none := by
  cases r <;> simp [FailReason.code]

theorem State.AtReset.status_eq {s : State} (h : s.AtReset) : s.status = State.reset.status := by
  obtain ⟨-, hshown, -⟩ := statusPacksTableT6
  have hreason : s.failReason = .none := (FailReason.code_eq_zero_iff _).mp h.failReason
  have hstate : s.failState = .idle := (Ctl.code_eq_zero_iff _).mp h.failState
  exact hshown s State.reset h.ctl h.failCode hreason hstate h.rxTerm h.rxCount

/-- `link_own` is the derived flag `busy`, which is 0 in `IDLE` (R36, R45(c)). -/
theorem State.linkOwn_of_idle {s : State} (h : s.ctl = .idle) : s.linkOwn = false := by
  rw [State.linkOwn, State.busy, h]

/-- Settles O2: by Table T4 the block is in `IDLE` and STATUS is that of the state at power-on. -/
theorem statusAndLinkOwnAfterReset : Obligations.StatusAndLinkOwnAfterReset := by
  obtain ⟨-, -, hpowerOn⟩ := statusPacksTableT6
  exact fun s h => ⟨h.status_eq.trans hpowerOn, State.linkOwn_of_idle h.ctl⟩

end Sys2Proof.Machine
end

section
/-! FrameDecodeOfEncode and FrameEncodeOfDecode: the frame decoder (log 15) accepts the encodings of the well-formed
frames and nothing else (Tables T7 and T8), and hands back what follows them. -/

namespace Sys2Proof

/-- The seven bytes of a request in front of its payload (Table T7). -/
def Frame.header (f : Frame) : List Byte :=
  [Config.sync0, Config.sync1, Config.srcAddr, f.dest, f.cmd.control, f.cmd.function, BitVec.ofNat 8 f.payload.length]

/-- The bytes of a request as the frame decoder reads them: the header, and the body the body decoder takes. -/
theorem encodeFrame_append (f : Frame) (rest : List Byte) :
    encodeFrame f ++ rest = f.header ++ (f.payload ++ [hiByte (csum (f.header ++ f.payload)),
      loByte (csum (f.header ++ f.payload)), Config.term0, Config.term1] ++ rest) := by
  simp [encodeFrame, frameBytes, coveredBytes, Frame.header]

theorem Frame.payload_length_le {f : Frame} (h : f.wellFormed = true) : f.payload.length ≤ 240 := by
  rw [Frame.wellFormed, Bool.and_eq_true, Bool.and_eq_true] at h
  obtain ⟨⟨hlength, -⟩, -⟩ := h
  exact of_decide_eq_true hlength

/-- The length byte of a well-formed request is its payload's length (R82). -/
theorem Frame.lengthByte_toNat {f : Frame} (h : f.wellFormed = true) :
    (BitVec.ofNat 8 f.payload.length).toNat = f.payload.length := by
  have hfits := f.payload_length_le h
  rw [BitVec.toNat_ofNat]
  omega

/-- The header of a well-formed request passes every check, and its body is left to the body decoder. -/
theorem decodeFrame_header_append {f : Frame} {body rest : List Byte} (h : f.wellFormed = true)
    (hbody : decodeBody f.header f.payload.length body = .ok (f.payload, rest)) :
    decodeFrame (f.header ++ body) = .ok (f, rest) := by
  have hlen := f.lengthByte_toNat h
  have hfits : ¬Config.maxPayload < f.payload.length := Nat.not_lt.mpr (f.payload_length_le h)
  rw [Frame.header] at hbody ⊢
  simp only [decodeFrame, List.cons_append, List.nil_append, ne_eq, not_true_eq_false, or_self, if_false, if_true,
    decodeCommand_encoded, hlen, hfits, hbody, h]

/-- What the frame decoder accepts: seven bytes that are the header of a well-formed request, and a body that the body
decoder accepts with that header. -/
theorem decodeFrame_eq_ok {bytes rest : List Byte} {f : Frame} (h : decodeFrame bytes = .ok (f, rest)) :
    f.wellFormed = true ∧ ∃ body, bytes = f.header ++ body
      ∧ decodeBody f.header f.payload.length body = .ok (f.payload, rest) := by
  unfold decodeFrame at h
  split at h
  next s0 s1 src dest control function len body =>
    split at h
    · cases h
    next hsync =>
    split at h
    · cases h
    next hsrc =>
    split at h
    · cases h
    next hlen =>
    split at h
    · cases h
    next cmd hcmd =>
    split at h
    · cases h
    next payload more hbody =>
    dsimp only at h
    split at h
    next hwf =>
      cases h
      rw [not_or, not_not, not_not] at hsync
      obtain ⟨rfl, rfl⟩ := hsync
      obtain rfl := not_not.mp hsrc
      obtain ⟨rfl, rfl⟩ := decodeCommand_eq_ok hcmd
      obtain ⟨hpayload, -⟩ := decodeBody_eq_ok hbody
      have hheader : Frame.header { dest, cmd, payload } =
          [Config.sync0, Config.sync1, Config.srcAddr, dest, cmd.control, cmd.function, len] := by
        simp [Frame.header, hpayload]
      refine ⟨hwf, body, ?_, ?_⟩
      · rw [hheader]
        rfl
      · rw [hheader, hpayload]
        exact hbody
    · cases h
  · cases h

/-- The frame decoder accepts the encodings of the well-formed requests and nothing else. -/
theorem decodeFrame_eq_ok_iff {bytes rest : List Byte} {f : Frame} :
    decodeFrame bytes = .ok (f, rest) ↔ f.wellFormed = true ∧ bytes = encodeFrame f ++ rest := by
  constructor
  · intro h
    obtain ⟨hwf, body, rfl, hbody⟩ := decodeFrame_eq_ok h
    obtain ⟨-, rfl⟩ := decodeBody_eq_ok hbody
    exact ⟨hwf, (encodeFrame_append f rest).symm⟩
  · rintro ⟨hwf, rfl⟩
    rw [encodeFrame_append]
    exact decodeFrame_header_append hwf (decodeBody_encoded f.header f.payload rest)

/-- Settles O5: the header of a well-formed frame passes the decoder's checks, and its body is read with that header. -/
theorem frameDecodeOfEncode : Obligations.FrameDecodeOfEncode :=
  fun _ _ hwf => decodeFrame_eq_ok_iff.mpr ⟨hwf, rfl⟩

/-- Settles O6: the header accepted is that of the frame answered, and the body accepted is its payload, checksum and
terminator. -/
theorem frameEncodeOfDecode : Obligations.FrameEncodeOfDecode :=
  fun _ _ _ h => decodeFrame_eq_ok_iff.mp h

end Sys2Proof
end

section
/-! CommandsNeverStop and BuiltFramesDecodeToTheirCommand: every command issues the write of its own frame, but REGISTER
where serial bytes are missing (R120..R123, R190). -/

namespace Sys2Proof.Machine

/-! ### The commands, said once -/

/-- The state in which a command's write is outstanding (Table T10). -/
def writingCtl : Instr → Ctl
  | .reset => .rstTx
  | .identify => .idTx
  | .register => .regTx
  | .poll => .pollTx

theorem writing_writingCtl (i : Instr) : (writingCtl i).writing = true := by
  cases i <;> rfl

/-- What a command writes besides its frame: the end of the settle delay, and POLL the address (R177, R187, R196). -/
def State.prepared (s : State) : Instr → State
  | .reset => s
  | .identify | .register => { s with settleCnt := 0 }
  | .poll => { s with destAddr := Config.assignedAddr }

/-- The payload of a command's frame: REGISTER alone has an operand (R86, Table T8). -/
def State.operand (s : State) : Instr → List Byte
  | .reset | .identify | .poll => []
  | .register => s.registerPayload

@[simp] theorem State.prepared_ctl (s : State) (i : Instr) : (s.prepared i).ctl = s.ctl := by
  cases i <;> rfl

@[simp] theorem State.prepared_trace (s : State) (i : Instr) : (s.prepared i).trace = s.trace := by
  cases i <;> rfl

/-- From a state without an assigned address a command sends to the destination of Table T8. -/
theorem State.prepared_destAddr {s : State} (h : s.destAddr = 0x00) (i : Instr) :
    (s.prepared i).destAddr = i.destAddr := by
  cases i with
  | reset | identify | register => exact h
  | poll => rfl

/-- Every command answers with its write issued, but REGISTER with serial bytes missing, which fails the session. -/
theorem exec_eq (i : Instr) (s : State) :
    exec i s = .next (if i = .register ∧ s.serialInRange = false then (s.prepared i).raiseFailure .serialOutOfRange
      else (s.prepared i).issue i.control i.function (s.operand i) (writingCtl i)) := by
  cases i with
  | reset | identify | poll => rfl
  | register =>
    cases hr : s.serialInRange
    · exact if_neg (by simp [hr])
    · exact execRegister_of_serialInRange hr

/-- Only REGISTER can have an operand too long for a frame (R117, R191). -/
theorem State.eq_register_of_operand_long {s : State} {i : Instr} (h : 240 < (s.operand i).length) : i = .register := by
  cases i with
  | register => rfl
  | reset | identify | poll => cases h

/-- A command fails the session, REGISTER alone does, or issues its write with an operand that fits (R117, R190). -/
theorem exec_eq_next_cases {i : Instr} {s t : State} (h : exec i s = .next t) :
    (i = .register ∧ ∃ u reason, t = State.raiseFailure u reason ∧ u.ctl = s.ctl ∧ u.trace = s.trace)
      ∨ ((s.operand i).length ≤ 240
        ∧ t = (s.prepared i).issue i.control i.function (s.operand i) (writingCtl i)) := by
  rw [exec_eq] at h
  cases h
  split
  next hmissing => exact .inl ⟨hmissing.1, _, _, rfl, by simp, by simp⟩
  next =>
    rcases Nat.lt_or_ge 240 (s.operand i).length with hlong | hfits
    · exact .inl ⟨State.eq_register_of_operand_long hlong, _, _, State.issue_refused hlong, by simp, by simp⟩
    · exact .inr ⟨hfits, rfl⟩

/-- Settles O21: a command that does not fail the session has issued its write. -/
theorem commandsNeverStop : Obligations.CommandsNeverStop := by
  intro i s
  obtain ⟨t, ht⟩ := exists_exec_eq_next i s
  refine ⟨t, ht, ?_⟩
  rcases exec_eq_next_cases ht with ⟨hi, u, reason, rfl, hctl, htrace⟩ | ⟨hfits, rfl⟩
  · exact .inr ⟨hi, rfl, hctl, htrace⟩
  · exact .inl (State.issue_req hfits (writing_writingCtl i))

/-! ### The frame a command leaves in `tx_buf` -/

/-- A command's operand is one that Table T8 gives it. -/
theorem wellFormed_operand {i : Instr} {s : State} (h : (s.operand i).length ≤ 240) :
    Frame.wellFormed { dest := i.destAddr, cmd := i, payload := s.operand i } = true := by
  cases i with
  | register => exact wellFormed_registerPayload h
  | reset | identify | poll => exact wellFormed_nil (by decide)

/-- Settles O20: the frame of an issued write is the encoding of a well-formed frame, which the frame decoder reads
back. -/
theorem builtFramesDecodeToTheirCommand : Obligations.BuiltFramesDecodeToTheirCommand := by
  intro i s t hdest hexec hctl
  rcases exec_eq_next_cases hexec with ⟨-, u, reason, rfl, -, -⟩ | ⟨hfits, rfl⟩
  · exact absurd rfl hctl
  · have hwf := wellFormed_operand hfits
    refine ⟨_, decodeFrame_eq_ok_iff.mpr ⟨hwf, ?_⟩, hwf, rfl, ?_, ?_⟩
    · rw [State.issue_txFrame hfits, State.prepared_destAddr hdest, List.append_nil]
      rfl
    · rw [State.issue_destAddr, State.prepared_destAddr hdest]
    · cases i <;> rfl

end Sys2Proof.Machine
end

section
/-! StepRunsTheDecodedCommand and EachRowIssuesItsCommand: a step runs the command of the word its event fetches, and
the four rows of Table T10 that fetch one fetch the command's encoding. -/

namespace Sys2Proof.Machine

theorem stepOn_of_decode {e : Event} {s : State} {word more : List Byte} {i : Instr} (hf : fetch s e = some word)
    (hd : decode word = .ok (i, more)) : stepOn e s = exec i s := by
  simp only [stepOn, hf, hd]

theorem stepOn_of_encode {e : Event} {s : State} {i : Instr} (hf : fetch s e = some (encode i)) :
    stepOn e s = exec i s := by
  refine stepOn_of_decode hf (more := []) ?_
  cases i <;> rfl

/-- Settles O22: `step` takes the event, and `stepOn` runs the command decoded. -/
theorem stepRunsTheDecodedCommand : Obligations.StepRunsTheDecodedCommand := by
  intro s e rest word more i hi hf hd
  rw [step_of_inputs_cons hi]
  exact stepOn_of_decode hf hd

/-- Settles O23: where a row issues a command, the word it fetches decodes to that command; where none does, nothing is
fetched. -/
theorem eachRowIssuesItsCommand : Obligations.EachRowIssuesItsCommand := by
  intro s e rest hi
  rw [step_of_inputs_cons hi]
  split_ifs with hreset hidentify hregister hpoll
  · obtain ⟨hc, rfl⟩ := hreset
    exact stepOn_of_encode (by simp [fetch, hc, encode, Instr.control, Instr.function])
  · obtain ⟨hc, rfl, h1⟩ := hidentify
    exact stepOn_of_encode (by simp [fetch, hc, h1, encode, Instr.control, Instr.function])
  · obtain ⟨hc, rfl, h1⟩ := hregister
    exact stepOn_of_encode (by simp [fetch, hc, h1, encode, Instr.control, Instr.function])
  · obtain ⟨hc, rfl⟩ := hpoll
    exact stepOn_of_encode (by simp [fetch, hc, encode, Instr.control, Instr.function])
  · apply stepOn_of_handle
    refine Option.eq_none_iff_forall_ne_some.mpr fun word hf => ?_
    rcases fetch_eq_some hf with ⟨hc, he, -⟩ | ⟨hc, he, h1, -⟩ | ⟨hc, he, h1, -⟩ | ⟨hc, he, -⟩
    · exact hreset ⟨hc, he⟩
    · exact hidentify ⟨hc, he, h1⟩
    · exact hregister ⟨hc, he, h1⟩
    · exact hpoll ⟨hc, he⟩

end Sys2Proof.Machine
end

section
/-! ResetStateIsLegal and EveryStepKeepsTheStateLegal: the invariant `State.Legal` at reset and along every row of Table
T10. -/

namespace Sys2Proof.Machine

/-- Settles O47: the parameters of `95_test_vectors.md` keep the counts of Table T2. -/
theorem resetStateIsLegal : Obligations.ResetStateIsLegal :=
  State.legal_reset (p := Config.vectorParams) (by decide) []

/-- Settles O48: every row of Table T10 keeps each group of the clauses of legality, and so does taking an event. -/
theorem everyStepKeepsTheStateLegal : Obligations.EveryStepKeepsTheStateLegal :=
  fun _ _ hlegal hs => hlegal.step hs

end Sys2Proof.Machine
end
